-- ==== Sys2Proof/Syntax.lean ====
section
/-! DEFINITION. The twelve units (00_scope.md rule R2), one constructor per row of spec/opcode_table.json, and the names
of their ports. A unit plays the part of one instruction (30_encoding.md rule R46); its operands are the values on its
input ports and not fields of an encoding (rules R46 and R48), so no constructor has an argument. -/

namespace Sys2Proof

/-- The units in the order of their index (30_encoding.md rule R47). -/
inductive Instr where
  /-- `And16`, 40_logic_reduction.md rules R59 and R60. -/
  | and16
  /-- `Or8Way`, 40_logic_reduction.md rule R61. -/
  | or8Way
  /-- `OrNWay`, 40_logic_reduction.md rule R62. -/
  | orNWay
  /-- `BarrelShifter`, 41_barrel_shifter.md rule R65. -/
  | barrelShifter
  /-- `Mux2way`, 42_mux.md rule R70. -/
  | mux2way
  /-- `Mux4way`, 42_mux.md rule R71. -/
  | mux4way
  /-- `Mux8way`, 42_mux.md rule R72. -/
  | mux8way
  /-- `DeMux2way`, 43_demux.md rule R76. -/
  | deMux2way
  /-- `DeMux4way`, 43_demux.md rule R77. -/
  | deMux4way
  /-- `DeMux8way`, 43_demux.md rule R78. -/
  | deMux8way
  /-- `Bin2Hex`, 44_bin2hex.md rule R81. -/
  | bin2Hex
  /-- `Bin2Bcd`, 45_bin2bcd.md rule R86. -/
  | bin2Bcd
  deriving DecidableEq, Repr

/-- Every port name of 10_state.md rules R27 to R31. The input port `bin` of Bin2Hex and the others are labels only
(rule R26, decision D11). -/
inductive Port where
  | a | b | c | d | e | f | g | h
  | dir | size | sel | bin
  | q | q0 | q1 | q2 | q3 | q4 | q5 | q6 | q7
  | seg | bcd1 | bcd0
  deriving DecidableEq, Repr

end Sys2Proof
end

