-- ==== Sys2Proof/Word.lean ====
section
/-! DEFINITION. The value types of 10_state.md section 2: Bit (rule R21), Word(N) (rule R22), and a word together with
its width, for a caller that discovers widths while it runs (60_exceptions.md rule R104). -/

namespace Sys2Proof

/-- `Word(N)` of rule R22: N bits, bit 0 the least significant (rule R8), read as an unsigned integer (rule R10). The
width is part of the type, so that it never varies at run time. -/
abbrev Word (n : Nat) := BitVec n

/-- `Bit` of rule R21: 0 or 1, with no third value. -/
abbrev Bit := Word 1

/-- A word that carries its width as data: what a dynamically typed harness holds (rule R104), and what a net of a
composition carries (70_reset_and_hazards.md rule R116). -/
structure DynWord where
  width : Nat
  bits : Word width
  deriving DecidableEq, Repr

end Sys2Proof
end

