-- ==== Sys2Proof/Decode.lean ====
section
/-! DEFINITION. The unit index (30_encoding.md rule R47): decoding it, and encoding a unit. The index is the spec's own
label; no wire of the hardware carries it. -/

namespace Sys2Proof

/-- Why a unit index is refused. -/
inductive DecodeError where
  /-- The index is 12 to 15, which rule R47 leaves unassigned: "a model that decodes a UID refuses these". -/
  | unassigned (uid : Word 4)
  deriving DecidableEq, Repr

/-- Rule R47's table from the pattern to the unit; 12 to 15 are refused (93_implementation_defined.md U10). -/
def decode (uid : Word 4) : Except DecodeError Instr :=
  match uid.toNat with
  | 0 => .ok .and16
  | 1 => .ok .or8Way
  | 2 => .ok .orNWay
  | 3 => .ok .barrelShifter
  | 4 => .ok .mux2way
  | 5 => .ok .mux4way
  | 6 => .ok .mux8way
  | 7 => .ok .deMux2way
  | 8 => .ok .deMux4way
  | 9 => .ok .deMux8way
  | 10 => .ok .bin2Hex
  | 11 => .ok .bin2Bcd
  | _ => .error (.unassigned uid)

/-- Rule R47's table from the unit to the pattern. -/
def encode : Instr → Word 4
  | .and16 => 0b0000#4
  | .or8Way => 0b0001#4
  | .orNWay => 0b0010#4
  | .barrelShifter => 0b0011#4
  | .mux2way => 0b0100#4
  | .mux4way => 0b0101#4
  | .mux8way => 0b0110#4
  | .deMux2way => 0b0111#4
  | .deMux4way => 0b1000#4
  | .deMux8way => 0b1001#4
  | .bin2Hex => 0b1010#4
  | .bin2Bcd => 0b1011#4

/-- The unit index in a word of `nbits` bits of the opcode table: its bits 3 to 0, the only ones the table's `mask`
(always `0xF`, rule R57) covers. DEDUCED: the bits that fill the word up to a whole byte are no part of the index;
notes/assumptions/6.md. -/
def tableWordUid (nbits w : Nat) : Word 4 :=
  BitVec.ofNat 4 (w % 2 ^ nbits)

/-- The unit the decoder reads from a table word, `none` where it refuses. -/
def decodeTableWord (nbits w : Nat) : Option Instr :=
  match decode (tableWordUid nbits w) with
  | .ok i => some i
  | .error _ => none

end Sys2Proof
end

