-- ==== Sys2Proof/Config.lean ====
section
/-! DEFINITION. The implementation parameters of 00_scope.md rule R7 that have more than one value. A parameter with a
single value is written into the port types of Machine/State.lean instead: `AND16_W` = 16, `OR8_N` = 8, `ORN_W` = 16,
`SHIFT_W` = 16, `MUX2_SEL_W` = 2, `DEMUX8_SEL_W` = 3, `SEG_W` = 7, `BCD_IN_W` = 8, `BCD_DIGIT_W` = 4,
`BCD_OOR_POLICY` = invalid. -/

namespace Sys2Proof

/-- `AND16_MODE` (rules R59 and R60; conflict C1). -/
inductive And16Mode where
  /-- The default: the bit-wise AND of rule R59. -/
  | bitwise
  /-- The behaviour reported of the original code: the 1-bit logical AND of rule R60. -/
  | logical
  deriving DecidableEq, Repr

/-- `MUX_OOR_POLICY` (42_mux.md rule R73; conflict C2). -/
inductive MuxOorPolicy where
  /-- The default: an out-of-range selector yields `InvalidInput(SelectorOutOfRange)`. -/
  | invalid
  /-- The permitted switch: the same inputs yield `Ok` with `q = 0`. -/
  | zero
  deriving DecidableEq, Repr

/-- The parameters of rule R7 a model takes as arguments. Their constraints are `Config.legal`
(Sys2Proof/WellFormed.lean). -/
structure Config where
  and16Mode : And16Mode
  muxOorPolicy : MuxOorPolicy
  /-- `SIZE_W`, OPEN, at least 1: the width of `BarrelShifter.size`. -/
  sizeW : Nat
  /-- `MUX_W`: the width of every multiplexer data port. -/
  muxW : Nat
  /-- `MUX4_SEL_W`, OPEN, at least 3. -/
  mux4SelW : Nat
  /-- `MUX8_SEL_W`: 3 by decision D7; the last sentence of rule R72 says what a wider one does. -/
  mux8SelW : Nat
  /-- `DEMUX_W`: the width of every demultiplexer data port. -/
  demuxW : Nat
  /-- `DEMUX2_SEL_W`, OPEN, at least 1. -/
  demux2SelW : Nat
  /-- `DEMUX4_SEL_W`, OPEN, at least 2. -/
  demux4SelW : Nat
  /-- `BIN2HEX_IN_W`: 5 by default, any width of at least 5. -/
  binW : Nat
  deriving DecidableEq, Repr

/-- The values of rule R7 and the defaults of 92_eei_decisions.md. The four OPEN widths have none there: DESIGN CHOICE
(unsafe), 4 for `SIZE_W` (the conventional value) and the least legal width for the others; notes/assumptions/3.md. -/
def Config.default : Config where
  and16Mode := .bitwise
  muxOorPolicy := .invalid
  sizeW := 4
  muxW := 16
  mux4SelW := 3
  mux8SelW := 3
  demuxW := 16
  demux2SelW := 1
  demux4SelW := 2
  binW := 5

end Sys2Proof
end

