-- ==== Sys2Proof/Machine/State.lean ====
section
/-! DEFINITION. The data of one evaluation (00_scope.md rule R14): the input ports of the twelve units (10_state.md rules
R27 to R31), the outcome, the causes of `InvalidInput` (60_exceptions.md rule R91), and the State the host's form asks
for. The hardware itself has no state (rule R19); notes/assumptions/1.md says what the fields of State stand for. -/

namespace Sys2Proof.Machine

/-! Input ports, one structure per unit. -/

/-- Rule R27. -/
structure And16In where
  a : Word 16
  b : Word 16
  deriving DecidableEq, Repr

/-- Rule R27. -/
structure Or8WayIn where
  a : Bit
  b : Bit
  c : Bit
  d : Bit
  e : Bit
  f : Bit
  g : Bit
  h : Bit
  deriving DecidableEq, Repr

/-- Rule R27. -/
structure OrNWayIn where
  a : Word 16
  deriving DecidableEq, Repr

/-- Rule R28. -/
structure BarrelShifterIn (cfg : Config) where
  a : Word 16
  dir : Bit
  size : Word cfg.sizeW
  deriving DecidableEq, Repr

/-- Rule R29. -/
structure Mux2wayIn (cfg : Config) where
  a : Word cfg.muxW
  b : Word cfg.muxW
  sel : Word 2
  deriving DecidableEq, Repr

/-- Rule R29. -/
structure Mux4wayIn (cfg : Config) where
  a : Word cfg.muxW
  b : Word cfg.muxW
  c : Word cfg.muxW
  d : Word cfg.muxW
  sel : Word cfg.mux4SelW
  deriving DecidableEq, Repr

/-- Rule R29; the selector's width by rule R72. -/
structure Mux8wayIn (cfg : Config) where
  a : Word cfg.muxW
  b : Word cfg.muxW
  c : Word cfg.muxW
  d : Word cfg.muxW
  e : Word cfg.muxW
  f : Word cfg.muxW
  g : Word cfg.muxW
  h : Word cfg.muxW
  sel : Word cfg.mux8SelW
  deriving DecidableEq, Repr

/-- Rule R30. -/
structure DeMux2wayIn (cfg : Config) where
  a : Word cfg.demuxW
  sel : Word cfg.demux2SelW
  deriving DecidableEq, Repr

/-- Rule R30. -/
structure DeMux4wayIn (cfg : Config) where
  a : Word cfg.demuxW
  sel : Word cfg.demux4SelW
  deriving DecidableEq, Repr

/-- Rule R30. -/
structure DeMux8wayIn (cfg : Config) where
  a : Word cfg.demuxW
  sel : Word 3
  deriving DecidableEq, Repr

/-- Rule R31. -/
structure Bin2HexIn (cfg : Config) where
  bin : Word cfg.binW
  deriving DecidableEq, Repr

/-- Rule R31. -/
structure Bin2BcdIn where
  b : Word 8
  deriving DecidableEq, Repr

/-- The input ports of one instance of each unit. Instances share nothing (20_memory.md rule R45). -/
structure Inputs (cfg : Config) where
  and16 : And16In
  or8Way : Or8WayIn
  orNWay : OrNWayIn
  barrelShifter : BarrelShifterIn cfg
  mux2way : Mux2wayIn cfg
  mux4way : Mux4wayIn cfg
  mux8way : Mux8wayIn cfg
  deMux2way : DeMux2wayIn cfg
  deMux4way : DeMux4wayIn cfg
  deMux8way : DeMux8wayIn cfg
  bin2Hex : Bin2HexIn cfg
  bin2Bcd : Bin2BcdIn
  deriving DecidableEq, Repr

/-- Every input port at zero: a DESIGN CHOICE (unsafe), since the spec has no reset and names no initial input value
(rule R106); notes/assumptions/2.md. -/
def Inputs.zero (cfg : Config) : Inputs cfg where
  and16 := ⟨0#16, 0#16⟩
  or8Way := ⟨0#1, 0#1, 0#1, 0#1, 0#1, 0#1, 0#1, 0#1⟩
  orNWay := ⟨0#16⟩
  barrelShifter := ⟨0#16, 0#1, 0#_⟩
  mux2way := ⟨0#_, 0#_, 0#2⟩
  mux4way := ⟨0#_, 0#_, 0#_, 0#_, 0#_⟩
  mux8way := ⟨0#_, 0#_, 0#_, 0#_, 0#_, 0#_, 0#_, 0#_, 0#_⟩
  deMux2way := ⟨0#_, 0#_⟩
  deMux4way := ⟨0#_, 0#_⟩
  deMux8way := ⟨0#_, 0#3⟩
  bin2Hex := ⟨0#_⟩
  bin2Bcd := ⟨0#8⟩

/-- The output `q` of And16: a word in bit-wise mode, a bit in logical mode (rules R27, R59, R60). -/
inductive And16Out where
  | word (q : Word 16)
  | bit (q : Bit)
  deriving DecidableEq, Repr

/-- `Ok(outputs)` of rule R14: one value for each output port of the unit evaluated (rules R27 to R31). -/
inductive Outputs (cfg : Config) where
  | and16 (q : And16Out)
  | or8Way (q : Bit)
  | orNWay (q : Bit)
  | barrelShifter (q : Word 16)
  | mux2way (q : Word cfg.muxW)
  | mux4way (q : Word cfg.muxW)
  | mux8way (q : Word cfg.muxW)
  | deMux2way (q0 q1 : Word cfg.demuxW)
  | deMux4way (q0 q1 q2 q3 : Word cfg.demuxW)
  | deMux8way (q0 q1 q2 q3 q4 q5 q6 q7 : Word cfg.demuxW)
  | bin2Hex (seg : Word 7)
  | bin2Bcd (bcd1 bcd0 : Word 4)
  deriving DecidableEq, Repr

/-- The closed list of causes of rule R91, each with the value the rule says is recorded. -/
inductive Cause where
  /-- `uint(sel) >= N`, raised by Mux2way and Mux4way (and a Mux8way built with a wider selector, rule R72): records
  the unit and `uint(sel)`. -/
  | selectorOutOfRange (unit : Instr) (sel : Nat)
  /-- `uint(b) >= 100`, raised by Bin2Bcd: records `uint(b)`. -/
  | bcdInputOutOfRange (b : Nat)
  /-- An operand's width differs from the port's: raised by the harness of Machine/Harness.lean and by the composition
  builder when they build a call, never by an evaluation (rule R104). Records the unit, the port, the port's width and
  the operand's. -/
  | widthMismatch (unit : Instr) (port : Port) (portWidth operandWidth : Nat)
  deriving DecidableEq, Repr

/-- The one exceptional outcome of the hardware. -/
inductive Fault where
  /-- `InvalidInput(cause)` (rule R90), raised by the multiplexers and Bin2Bcd exactly as rule R92 says. It gives the
  outputs no value, so it is safe: nothing about the original hardware's output can be proved from it. -/
  | invalidInput (cause : Cause)
  deriving DecidableEq, Repr

/-- Requests that name no evaluation. -/
inductive Refusal where
  /-- An arm of exec that has no meaning yet; raised by no arm of this model. Safe. -/
  | notModelled (mnemonic : String)
  /-- The step was asked for unit 12 to 15, which names no unit (rule R47). Safe: nothing is evaluated. -/
  | unassignedUid (uid : Word 4)
  /-- The harness was given a configuration outside the constraints of rule R7. Safe: nothing is evaluated. -/
  | illegalConfig
  /-- The harness was given no value for an input port: an undriven input is outside the model (rule R21). Safe:
  nothing is evaluated. -/
  | undrivenInput (unit : Instr) (port : Port)
  /-- The harness was given a value for a port that is no input of the unit. Safe: nothing is evaluated. -/
  | unknownPort (unit : Instr) (port : Port)
  /-- The harness was given two values for one input port. Safe: nothing is evaluated. -/
  | drivenTwice (unit : Instr) (port : Port)
  deriving DecidableEq, Repr

/-- The data of one evaluation. `cfg` holds the parameters fixed when the block is built (rule R7); `uid` names the unit
the caller asks for (rule R47); `inputs` are the values the caller presents on the input ports (rule R16); `outcome`
is the `Ok` outcome of the evaluation made last, `none` when none has been made. No meaning reads `outcome`: it is no
retained output (10_state.md rule R33). -/
structure State where
  cfg : Config
  uid : Word 4
  inputs : Inputs cfg
  outcome : Option (Outputs cfg)
  deriving DecidableEq, Repr

/-- The hardware has no reset and nothing to reset (70_reset_and_hazards.md rules R105 and R106). This is the state
before any evaluation, with no evaluation made, the default configuration, and, as DESIGN CHOICES (unsafe), unit index
0 and every input port at zero; notes/assumptions/2.md, 3.md and 4.md. -/
def State.reset : State where
  cfg := Config.default
  uid := 0#4
  inputs := Inputs.zero Config.default
  outcome := none

end Sys2Proof.Machine
end

