-- ==== Sys2Proof/Machine/Operands.lean ====
section
/-! DEFINITION. How words are read and written (the notation of 00_scope.md rules R8 to R12; 30_encoding.md rules R49 to
R51) and the port signatures of the units (30_encoding.md rule R48, 10_state.md rules R27 to R31). -/

namespace Sys2Proof.Machine

/-- `uint(w)` of rule R11, the unsigned value of the whole port. No operand is signed (rule R10). -/
abbrev uint {n : Nat} (w : Word n) : Nat := w.toNat

/-- `trunc_n(v)` of rule R11: the word of width `n` whose value is `v mod 2^n`. -/
abbrev trunc (n v : Nat) : Word n := BitVec.ofNat n v

/-- `zext_m(w)` of rule R11, for `n` at most `m`. -/
abbrev zext {n : Nat} (m : Nat) (w : Word n) : Word m := w.setWidth m

/-- `bit(c)` of rule R11. -/
abbrev bit (c : Bool) : Bit := BitVec.ofBool c

/-- `w[i]` of rule R8 as a Bit, bit 0 the least significant. -/
abbrev bitAt {n : Nat} (w : Word n) (i : Nat) : Bit := w.extractLsb' i 1

/-- `w[hi:lo]` of rule R9, given by its low end and its width `hi - lo + 1`. -/
abbrev slice {n : Nat} (lo len : Nat) (w : Word n) : Word len := w.extractLsb' lo len

/-- The input ports of a unit with their widths, in the canonical order of rule R48. -/
def inPorts (c : Config) : Instr → List (Port × Nat)
  | .and16 => [(.a, 16), (.b, 16)]
  | .or8Way => [(.a, 1), (.b, 1), (.c, 1), (.d, 1), (.e, 1), (.f, 1), (.g, 1), (.h, 1)]
  | .orNWay => [(.a, 16)]
  | .barrelShifter => [(.a, 16), (.dir, 1), (.size, c.sizeW)]
  | .mux2way => [(.a, c.muxW), (.b, c.muxW), (.sel, 2)]
  | .mux4way => [(.a, c.muxW), (.b, c.muxW), (.c, c.muxW), (.d, c.muxW), (.sel, c.mux4SelW)]
  | .mux8way => [(.a, c.muxW), (.b, c.muxW), (.c, c.muxW), (.d, c.muxW), (.e, c.muxW), (.f, c.muxW), (.g, c.muxW),
      (.h, c.muxW), (.sel, c.mux8SelW)]
  | .deMux2way => [(.a, c.demuxW), (.sel, c.demux2SelW)]
  | .deMux4way => [(.a, c.demuxW), (.sel, c.demux4SelW)]
  | .deMux8way => [(.a, c.demuxW), (.sel, 3)]
  | .bin2Hex => [(.bin, c.binW)]
  | .bin2Bcd => [(.b, 8)]

/-- The width of And16's output: a word in bit-wise mode, a bit in logical mode (rules R27 and R60). -/
def and16OutWidth (c : Config) : Nat :=
  match c.and16Mode with
  | .bitwise => 16
  | .logical => 1

/-- The output ports of a unit with their widths, in the canonical order of rule R48. -/
def outPorts (c : Config) : Instr → List (Port × Nat)
  | .and16 => [(.q, and16OutWidth c)]
  | .or8Way => [(.q, 1)]
  | .orNWay => [(.q, 1)]
  | .barrelShifter => [(.q, 16)]
  | .mux2way => [(.q, c.muxW)]
  | .mux4way => [(.q, c.muxW)]
  | .mux8way => [(.q, c.muxW)]
  | .deMux2way => [(.q0, c.demuxW), (.q1, c.demuxW)]
  | .deMux4way => [(.q0, c.demuxW), (.q1, c.demuxW), (.q2, c.demuxW), (.q3, c.demuxW)]
  | .deMux8way => [(.q0, c.demuxW), (.q1, c.demuxW), (.q2, c.demuxW), (.q3, c.demuxW), (.q4, c.demuxW),
      (.q5, c.demuxW), (.q6, c.demuxW), (.q7, c.demuxW)]
  | .bin2Hex => [(.seg, 7)]
  | .bin2Bcd => [(.bcd1, 4), (.bcd0, 4)]

/-- The values on the input ports of unit `i`, in the order of rule R48. -/
def Inputs.ports {c : Config} (x : Inputs c) : Instr → List (Port × DynWord)
  | .and16 => [(.a, ⟨_, x.and16.a⟩), (.b, ⟨_, x.and16.b⟩)]
  | .or8Way => [(.a, ⟨_, x.or8Way.a⟩), (.b, ⟨_, x.or8Way.b⟩), (.c, ⟨_, x.or8Way.c⟩), (.d, ⟨_, x.or8Way.d⟩),
      (.e, ⟨_, x.or8Way.e⟩), (.f, ⟨_, x.or8Way.f⟩), (.g, ⟨_, x.or8Way.g⟩), (.h, ⟨_, x.or8Way.h⟩)]
  | .orNWay => [(.a, ⟨_, x.orNWay.a⟩)]
  | .barrelShifter => [(.a, ⟨_, x.barrelShifter.a⟩), (.dir, ⟨_, x.barrelShifter.dir⟩),
      (.size, ⟨_, x.barrelShifter.size⟩)]
  | .mux2way => [(.a, ⟨_, x.mux2way.a⟩), (.b, ⟨_, x.mux2way.b⟩), (.sel, ⟨_, x.mux2way.sel⟩)]
  | .mux4way => [(.a, ⟨_, x.mux4way.a⟩), (.b, ⟨_, x.mux4way.b⟩), (.c, ⟨_, x.mux4way.c⟩), (.d, ⟨_, x.mux4way.d⟩),
      (.sel, ⟨_, x.mux4way.sel⟩)]
  | .mux8way => [(.a, ⟨_, x.mux8way.a⟩), (.b, ⟨_, x.mux8way.b⟩), (.c, ⟨_, x.mux8way.c⟩), (.d, ⟨_, x.mux8way.d⟩),
      (.e, ⟨_, x.mux8way.e⟩), (.f, ⟨_, x.mux8way.f⟩), (.g, ⟨_, x.mux8way.g⟩), (.h, ⟨_, x.mux8way.h⟩),
      (.sel, ⟨_, x.mux8way.sel⟩)]
  | .deMux2way => [(.a, ⟨_, x.deMux2way.a⟩), (.sel, ⟨_, x.deMux2way.sel⟩)]
  | .deMux4way => [(.a, ⟨_, x.deMux4way.a⟩), (.sel, ⟨_, x.deMux4way.sel⟩)]
  | .deMux8way => [(.a, ⟨_, x.deMux8way.a⟩), (.sel, ⟨_, x.deMux8way.sel⟩)]
  | .bin2Hex => [(.bin, ⟨_, x.bin2Hex.bin⟩)]
  | .bin2Bcd => [(.b, ⟨_, x.bin2Bcd.b⟩)]

/-- The word an And16 output port carries, with its width. -/
def And16Out.dyn : And16Out → DynWord
  | .word q => ⟨16, q⟩
  | .bit q => ⟨1, q⟩

/-- The reading of rule R60 for a 16-bit output port: in logical mode it carries `zext_16` of the bit. -/
def And16Out.asWord : And16Out → Word 16
  | .word q => q
  | .bit q => zext 16 q

/-- The unit whose outputs these are. -/
def Outputs.unit {c : Config} : Outputs c → Instr
  | .and16 _ => .and16
  | .or8Way _ => .or8Way
  | .orNWay _ => .orNWay
  | .barrelShifter _ => .barrelShifter
  | .mux2way _ => .mux2way
  | .mux4way _ => .mux4way
  | .mux8way _ => .mux8way
  | .deMux2way _ _ => .deMux2way
  | .deMux4way _ _ _ _ => .deMux4way
  | .deMux8way _ _ _ _ _ _ _ _ => .deMux8way
  | .bin2Hex _ => .bin2Hex
  | .bin2Bcd _ _ => .bin2Bcd

/-- The output ports with the words they carry, in the order of rule R48. -/
def Outputs.ports {c : Config} : Outputs c → List (Port × DynWord)
  | .and16 q => [(.q, q.dyn)]
  | .or8Way q => [(.q, ⟨1, q⟩)]
  | .orNWay q => [(.q, ⟨1, q⟩)]
  | .barrelShifter q => [(.q, ⟨16, q⟩)]
  | .mux2way q => [(.q, ⟨_, q⟩)]
  | .mux4way q => [(.q, ⟨_, q⟩)]
  | .mux8way q => [(.q, ⟨_, q⟩)]
  | .deMux2way q0 q1 => [(.q0, ⟨_, q0⟩), (.q1, ⟨_, q1⟩)]
  | .deMux4way q0 q1 q2 q3 => [(.q0, ⟨_, q0⟩), (.q1, ⟨_, q1⟩), (.q2, ⟨_, q2⟩), (.q3, ⟨_, q3⟩)]
  | .deMux8way q0 q1 q2 q3 q4 q5 q6 q7 => [(.q0, ⟨_, q0⟩), (.q1, ⟨_, q1⟩), (.q2, ⟨_, q2⟩), (.q3, ⟨_, q3⟩),
      (.q4, ⟨_, q4⟩), (.q5, ⟨_, q5⟩), (.q6, ⟨_, q6⟩), (.q7, ⟨_, q7⟩)]
  | .bin2Hex seg => [(.seg, ⟨7, seg⟩)]
  | .bin2Bcd bcd1 bcd0 => [(.bcd1, ⟨4, bcd1⟩), (.bcd0, ⟨4, bcd0⟩)]

end Sys2Proof.Machine
end

