-- ==== Sys2Proof/Machine/Ops.lean ====
section
/-! DEFINITION. What the units share: ending an evaluation with outputs or with `InvalidInput`, choosing a word by index,
routing a word by index. -/

namespace Sys2Proof.Machine

/-- The evaluation ends with `Ok(o)` (00_scope.md rule R14). It replaces the whole record of the earlier outcome and
changes nothing else (20_memory.md rules R38 and R39). -/
def complete (s : State) (o : Outputs s.cfg) : Host.Outcome State Fault Refusal :=
  .next { s with outcome := some o }

/-- `raise InvalidInput(cause)` (00_scope.md rule R13): the evaluation ends at once, no output has a value, nothing is
saved and control goes nowhere (60_exceptions.md rules R90, R94 and R97). There is no return from it (rule R98). -/
def raise (cause : Cause) : Host.Outcome State Fault Refusal :=
  .fault (.invalidInput cause)

/-- The numeric code of a cause (60_exceptions.md rule R91); code 0 is not used. -/
def Cause.code : Cause → Nat
  | .selectorOutOfRange _ _ => 1
  | .bcdInputOutOfRange _ => 2
  | .widthMismatch _ _ _ _ => 3

/-- The word at index `k` of the data inputs, counting from 0, and no word where there is none (42_mux.md rule R69):
the tagged choice between a valid index and an out-of-range one. -/
def muxSelect {n : Nat} (data : List (Word n)) (k : Nat) : Option (Word n) :=
  data[k]?

/-- The output word of a multiplexer for an out-of-range selector, if the policy gives it one (42_mux.md rule R73). -/
def outOfRangeWord (p : MuxOorPolicy) (n : Nat) : Option (Word n) :=
  match p with
  | .invalid => none
  | .zero => some 0#n

/-- The evaluation of a multiplexer: the selected word, or the policy's word, or `SelectorOutOfRange` with the unit and
the selector recorded (42_mux.md rules R69 and R73; 60_exceptions.md rule R91). -/
def muxEvaluate (unit : Instr) (s : State) (data : List (Word s.cfg.muxW)) (k : Nat)
    (drive : Word s.cfg.muxW → Outputs s.cfg) : Host.Outcome State Fault Refusal :=
  match muxSelect data k <|> outOfRangeWord s.cfg.muxOorPolicy s.cfg.muxW with
  | some q => complete s (drive q)
  | none => raise (.selectorOutOfRange unit k)

/-- Output `q<j>` of a demultiplexer whose selector reads `k`: the word when `j` is `k`, else the all-zero word
(43_demux.md rule R75). -/
def demuxLane {n : Nat} (a : Word n) (k j : Nat) : Word n :=
  if j = k then a else 0#n

end Sys2Proof.Machine
end

