-- ==== Sys2Proof/Machine/Decoders.lean ====
section
/-! DEFINITION. Bin2Hex (44_bin2hex.md) and Bin2Bcd (45_bin2bcd.md). -/

namespace Sys2Proof.Machine

/-- The fifteen exact entries of rule R82, keys 0 to 14, most significant bit first. -/
def segmentTable : List (Word 7) :=
  [0b1000000#7, 0b1111001#7, 0b0100100#7, 0b0110000#7, 0b0011001#7, 0b0010010#7, 0b0000010#7, 0b1111000#7,
   0b0000000#7, 0b0010000#7, 0b0001000#7, 0b0000011#7, 0b1000110#7, 0b0100001#7, 0b0000110#7]

/-- The pattern of hexadecimal F, which is also the default from key 15 up (rules R81 and R82; conflict C4). -/
def segmentDefault : Word 7 := 0b0001110#7

/-- The key of the lookup: only the low five bits of the port are consulted (30_encoding.md rule R51, rule R83). -/
def segmentKey {n : Nat} (bin : Word n) : Nat :=
  uint (slice 0 5 bin)

/-- The pattern for a key (rule R81). -/
def segmentOf (k : Nat) : Word 7 :=
  segmentTable.getD k segmentDefault

/-- `Bin2Hex` (rules R81 to R83); it raises for no input. -/
def execBin2Hex (s : State) : Host.Outcome State Fault Refusal :=
  complete s (.bin2Hex (segmentOf (segmentKey s.inputs.bin2Hex.bin)))

/-- The tens digit of `n` (rule R86). -/
def tensDigit (n : Nat) : Word 4 :=
  trunc 4 (n / 10)

/-- The ones digit of `n` (rule R86). -/
def onesDigit (n : Nat) : Word 4 :=
  trunc 4 (n % 10)

/-- `Bin2Bcd` (rules R86 and R87): from 100 up it raises and gives the digits no value. -/
def execBin2Bcd (s : State) : Host.Outcome State Fault Refusal :=
  let n := uint s.inputs.bin2Bcd.b
  if 100 ≤ n then raise (.bcdInputOutOfRange n)
  else complete s (.bin2Bcd (tensDigit n) (onesDigit n))

end Sys2Proof.Machine
end

