-- ==== Sys2Proof/Machine/Demux.lean ====
section
/-! DEFINITION. The demultiplexers (43_demux.md). Every output is driven in every evaluation (rules R75 and R114), and an
out-of-range selector drives them all to zero and raises nothing (rule R79). -/

namespace Sys2Proof.Machine

/-- `DeMux2way` (rules R76 and R79). -/
def execDeMux2way (s : State) : Host.Outcome State Fault Refusal :=
  let lane := demuxLane s.inputs.deMux2way.a (uint s.inputs.deMux2way.sel)
  complete s (.deMux2way (lane 0) (lane 1))

/-- `DeMux4way` (rules R77 and R79). -/
def execDeMux4way (s : State) : Host.Outcome State Fault Refusal :=
  let lane := demuxLane s.inputs.deMux4way.a (uint s.inputs.deMux4way.sel)
  complete s (.deMux4way (lane 0) (lane 1) (lane 2) (lane 3))

/-- `DeMux8way` (rule R78). -/
def execDeMux8way (s : State) : Host.Outcome State Fault Refusal :=
  let lane := demuxLane s.inputs.deMux8way.a (uint s.inputs.deMux8way.sel)
  complete s (.deMux8way (lane 0) (lane 1) (lane 2) (lane 3) (lane 4) (lane 5) (lane 6) (lane 7))

end Sys2Proof.Machine
end

