-- ==== Sys2Proof/Machine/Logic.lean ====
section
/-! DEFINITION. Logical reduction (40_logic_reduction.md): And16, Or8Way, OrNWay. None of them raises (rule R63). -/

namespace Sys2Proof.Machine

/-- Rule R59: the bit-wise AND. -/
def and16Bitwise (a b : Word 16) : Word 16 :=
  a &&& b

/-- Rule R60: 1 when both words are nonzero. -/
def and16Logical (a b : Word 16) : Bit :=
  bit (decide (uint a ≠ 0) && decide (uint b ≠ 0))

/-- The output of And16 in the mode it is instantiated with (rules R59 and R60). -/
def and16 (m : And16Mode) (a b : Word 16) : And16Out :=
  match m with
  | .bitwise => .word (and16Bitwise a b)
  | .logical => .bit (and16Logical a b)

/-- Rule R61. -/
def or8Way (a b c d e f g h : Bit) : Bit :=
  a ||| b ||| c ||| d ||| e ||| f ||| g ||| h

/-- Rule R62, bit by bit from bit 15 down. -/
def orNWay (a : Word 16) : Bit :=
  bitAt a 15 ||| bitAt a 14 ||| bitAt a 13 ||| bitAt a 12 ||| bitAt a 11 ||| bitAt a 10 ||| bitAt a 9 ||| bitAt a 8 |||
    bitAt a 7 ||| bitAt a 6 ||| bitAt a 5 ||| bitAt a 4 ||| bitAt a 3 ||| bitAt a 2 ||| bitAt a 1 ||| bitAt a 0

/-- `And16` (rules R59 and R60). -/
def execAnd16 (s : State) : Host.Outcome State Fault Refusal :=
  complete s (.and16 (and16 s.cfg.and16Mode s.inputs.and16.a s.inputs.and16.b))

/-- `Or8Way` (rule R61). -/
def execOr8Way (s : State) : Host.Outcome State Fault Refusal :=
  let x := s.inputs.or8Way
  complete s (.or8Way (or8Way x.a x.b x.c x.d x.e x.f x.g x.h))

/-- `OrNWay` (rule R62). -/
def execOrNWay (s : State) : Host.Outcome State Fault Refusal :=
  complete s (.orNWay (orNWay s.inputs.orNWay.a))

end Sys2Proof.Machine
end

