-- ==== Sys2Proof/Machine/Mux.lean ====
section
/-! DEFINITION. The multiplexers (42_mux.md). The data inputs are indexed in the alphabetical order of their names (rule
R69) and the selector is read over the whole port (30_encoding.md rule R50). -/

namespace Sys2Proof.Machine

/-- The data inputs of Mux2way in index order (rule R69). -/
def Mux2wayIn.data {c : Config} (x : Mux2wayIn c) : List (Word c.muxW) :=
  [x.a, x.b]

/-- The data inputs of Mux4way in index order (rule R69). -/
def Mux4wayIn.data {c : Config} (x : Mux4wayIn c) : List (Word c.muxW) :=
  [x.a, x.b, x.c, x.d]

/-- The data inputs of Mux8way in index order (rule R69, decision D19). -/
def Mux8wayIn.data {c : Config} (x : Mux8wayIn c) : List (Word c.muxW) :=
  [x.a, x.b, x.c, x.d, x.e, x.f, x.g, x.h]

/-- `Mux2way` (rules R70 and R73). -/
def execMux2way (s : State) : Host.Outcome State Fault Refusal :=
  muxEvaluate .mux2way s s.inputs.mux2way.data (uint s.inputs.mux2way.sel) .mux2way

/-- `Mux4way` (rules R71 and R73). -/
def execMux4way (s : State) : Host.Outcome State Fault Refusal :=
  muxEvaluate .mux4way s s.inputs.mux4way.data (uint s.inputs.mux4way.sel) .mux4way

/-- `Mux8way` (rule R72). With the 3-bit selector of the default every index is valid; a selector built wider falls
under rule R73 from 8 up, as rule R72 says. -/
def execMux8way (s : State) : Host.Outcome State Fault Refusal :=
  muxEvaluate .mux8way s s.inputs.mux8way.data (uint s.inputs.mux8way.sel) .mux8way

end Sys2Proof.Machine
end

