-- ==== Sys2Proof/Machine/Shifter.lean ====
section
/-! DEFINITION. BarrelShifter (41_barrel_shifter.md). It raises for no input (rules R65 and R67). -/

namespace Sys2Proof.Machine

/-- Rule R65 on the unsigned amount `n`: zero from 16 up, else a logical shift right (`dir` 0) or left (`dir` 1),
computed on unbounded naturals so that the amount cannot wrap. -/
def barrelShift (a : Word 16) (dir : Bit) (n : Nat) : Word 16 :=
  if 16 ≤ n then 0#16
  else if dir = 0#1 then trunc 16 (uint a >>> n)
  else trunc 16 (uint a <<< n)

/-- `BarrelShifter` (rule R65): the amount is `uint(size)` over the whole port. -/
def execBarrelShifter (s : State) : Host.Outcome State Fault Refusal :=
  let x := s.inputs.barrelShifter
  complete s (.barrelShifter (barrelShift x.a x.dir (uint x.size)))

end Sys2Proof.Machine
end

