-- ==== Sys2Proof/Machine/Dispatch.lean ====
section
/-! DEFINITION. The evaluation of each of the twelve units (00_scope.md rule R2). -/

namespace Sys2Proof.Machine

/-- One evaluation of unit `i` on the values of its input ports (00_scope.md rule R14). -/
def exec (i : Instr) (s : State) : Host.Outcome State Fault Refusal :=
  match i with
  | .and16 => Sys2Proof.Machine.execAnd16 s
  | .or8Way => Sys2Proof.Machine.execOr8Way s
  | .orNWay => Sys2Proof.Machine.execOrNWay s
  | .barrelShifter => Sys2Proof.Machine.execBarrelShifter s
  | .mux2way => Sys2Proof.Machine.execMux2way s
  | .mux4way => Sys2Proof.Machine.execMux4way s
  | .mux8way => Sys2Proof.Machine.execMux8way s
  | .deMux2way => Sys2Proof.Machine.execDeMux2way s
  | .deMux4way => Sys2Proof.Machine.execDeMux4way s
  | .deMux8way => Sys2Proof.Machine.execDeMux8way s
  | .bin2Hex => Sys2Proof.Machine.execBin2Hex s
  | .bin2Bcd => Sys2Proof.Machine.execBin2Bcd s

end Sys2Proof.Machine
end

