-- ==== Sys2Proof/Machine/Step.lean ====
section
/-! DEFINITION. One step: the evaluation of the unit the caller asks for (00_scope.md rules R14 and R16). -/

namespace Sys2Proof.Machine

/-- The step evaluates the unit `uid` names and refuses the four unassigned indices (30_encoding.md rule R47). Nothing
advances: there is no program counter (10_state.md rule R20). -/
def step (s : State) : Host.Outcome State Fault Refusal :=
  match decode s.uid with
  | .ok i => exec i s
  | .error (.unassigned uid) => .refused (.unassignedUid uid)

/-- The caller asks for the unit whose table word is `w`; notes/assumptions/5.md. -/
def State.withFetchWord (s : State) (nbits w : Nat) : State :=
  { s with uid := tableWordUid nbits w }

end Sys2Proof.Machine
end

