-- ==== Sys2Proof/Laws/PerInstr.lean ====
section
/-! SUPPORT. Statements made one unit at a time. -/

/-- The unit's index decodes to the unit, and no other index does (30_encoding.md rule R47). -/
def Sys2Proof.Laws.UidRoundTrip.Statement (i : Sys2Proof.Instr) : Prop :=
  Sys2Proof.decode (Sys2Proof.encode i) = .ok i ∧ ∀ u, Sys2Proof.decode u = .ok i → u = Sys2Proof.encode i

namespace Sys2Proof.Laws.UidRoundTrip

theorem and16 : Statement .and16 := by unfold Statement; decide
theorem or8Way : Statement .or8Way := by unfold Statement; decide
theorem orNWay : Statement .orNWay := by unfold Statement; decide
theorem barrelShifter : Statement .barrelShifter := by unfold Statement; decide
theorem mux2way : Statement .mux2way := by unfold Statement; decide
theorem mux4way : Statement .mux4way := by unfold Statement; decide
theorem mux8way : Statement .mux8way := by unfold Statement; decide
theorem deMux2way : Statement .deMux2way := by unfold Statement; decide
theorem deMux4way : Statement .deMux4way := by unfold Statement; decide
theorem deMux8way : Statement .deMux8way := by unfold Statement; decide
theorem bin2Hex : Statement .bin2Hex := by unfold Statement; decide
theorem bin2Bcd : Statement .bin2Bcd := by unfold Statement; decide

end Sys2Proof.Laws.UidRoundTrip
end

