-- ==== Sys2Proof/WellFormed.lean ====
section
/-! DEFINITION. What makes a configuration one the spec admits: the constraints of 00_scope.md rule R7 and of the tables
of 92_eei_decisions.md. An `Instr` has no operand, so every instruction is well-formed; that the operands fit their
ports is checked where operands are data, in Machine/Harness.lean and Machine/Composition.lean. -/

namespace Sys2Proof

/-- The constraints on the parameters (rule R7; 92_eei_decisions.md, "Parameters left OPEN" and "Configuration switches
with a default"). For `mux8SelW` the bound is that of rule R72: exactly 3, or wider. -/
def Config.legal (c : Config) : Bool :=
  decide (1 ≤ c.sizeW) && decide (1 ≤ c.muxW) && decide (3 ≤ c.mux4SelW) && decide (3 ≤ c.mux8SelW) &&
    decide (1 ≤ c.demuxW) && decide (1 ≤ c.demux2SelW) && decide (2 ≤ c.demux4SelW) && decide (5 ≤ c.binW)

end Sys2Proof
end

