-- ==== Sys2Proof/Machine/Harness.lean ====
section
/-! DEFINITION. The dynamically typed caller: it names a unit and gives each input port a value by name, in any order
(30_encoding.md rule R54), discovers the widths as it builds the call, and evaluates nothing when the call does not fit
(30_encoding.md rule R58; 60_exceptions.md rule R104). -/

namespace Sys2Proof.Machine

/-- `Unit(port=value, ...)` of rule R54, with the parameters the unit is instantiated with. -/
structure Call where
  unit : Instr
  cfg : Config
  operands : List (Port × DynWord)
  deriving DecidableEq, Repr

/-- Why a call is not evaluated. -/
inductive BadCall where
  /-- The call names no evaluation (rule R21, or a call that fits no signature of rule R48). -/
  | refusal (r : Refusal)
  /-- A caller contract is violated when the call is built: `WidthMismatch` (rule R104). -/
  | cause (c : Cause)
  deriving DecidableEq, Repr

/-- The value the call gives an input port of width `w`. A port with no value is undriven, which is outside the model
(rule R21); a value of another width is `WidthMismatch` and is neither truncated nor extended (rule R58). -/
def Call.operand (k : Call) (p : Port) (w : Nat) : Except BadCall (Word w) :=
  match k.operands.filter (fun o => o.1 == p) with
  | [] => .error (.refusal (.undrivenInput k.unit p))
  | [(_, v)] =>
    if h : v.width = w then .ok (v.bits.cast h)
    else .error (.cause (.widthMismatch k.unit p w v.width))
  | _ => .error (.refusal (.drivenTwice k.unit p))

/-- The input ports with the call's values on the ports of its unit, read in the order of rule R48. -/
def Call.inputs (k : Call) : Except BadCall (Inputs k.cfg) :=
  match k.unit with
  | .and16 => do
    let a ← k.operand .a 16
    let b ← k.operand .b 16
    return { Inputs.zero k.cfg with and16 := ⟨a, b⟩ }
  | .or8Way => do
    let a ← k.operand .a 1
    let b ← k.operand .b 1
    let c ← k.operand .c 1
    let d ← k.operand .d 1
    let e ← k.operand .e 1
    let f ← k.operand .f 1
    let g ← k.operand .g 1
    let h ← k.operand .h 1
    return { Inputs.zero k.cfg with or8Way := ⟨a, b, c, d, e, f, g, h⟩ }
  | .orNWay => do
    let a ← k.operand .a 16
    return { Inputs.zero k.cfg with orNWay := ⟨a⟩ }
  | .barrelShifter => do
    let a ← k.operand .a 16
    let dir ← k.operand .dir 1
    let size ← k.operand .size k.cfg.sizeW
    return { Inputs.zero k.cfg with barrelShifter := ⟨a, dir, size⟩ }
  | .mux2way => do
    let a ← k.operand .a k.cfg.muxW
    let b ← k.operand .b k.cfg.muxW
    let sel ← k.operand .sel 2
    return { Inputs.zero k.cfg with mux2way := ⟨a, b, sel⟩ }
  | .mux4way => do
    let a ← k.operand .a k.cfg.muxW
    let b ← k.operand .b k.cfg.muxW
    let c ← k.operand .c k.cfg.muxW
    let d ← k.operand .d k.cfg.muxW
    let sel ← k.operand .sel k.cfg.mux4SelW
    return { Inputs.zero k.cfg with mux4way := ⟨a, b, c, d, sel⟩ }
  | .mux8way => do
    let a ← k.operand .a k.cfg.muxW
    let b ← k.operand .b k.cfg.muxW
    let c ← k.operand .c k.cfg.muxW
    let d ← k.operand .d k.cfg.muxW
    let e ← k.operand .e k.cfg.muxW
    let f ← k.operand .f k.cfg.muxW
    let g ← k.operand .g k.cfg.muxW
    let h ← k.operand .h k.cfg.muxW
    let sel ← k.operand .sel k.cfg.mux8SelW
    return { Inputs.zero k.cfg with mux8way := ⟨a, b, c, d, e, f, g, h, sel⟩ }
  | .deMux2way => do
    let a ← k.operand .a k.cfg.demuxW
    let sel ← k.operand .sel k.cfg.demux2SelW
    return { Inputs.zero k.cfg with deMux2way := ⟨a, sel⟩ }
  | .deMux4way => do
    let a ← k.operand .a k.cfg.demuxW
    let sel ← k.operand .sel k.cfg.demux4SelW
    return { Inputs.zero k.cfg with deMux4way := ⟨a, sel⟩ }
  | .deMux8way => do
    let a ← k.operand .a k.cfg.demuxW
    let sel ← k.operand .sel 3
    return { Inputs.zero k.cfg with deMux8way := ⟨a, sel⟩ }
  | .bin2Hex => do
    let bin ← k.operand .bin k.cfg.binW
    return { Inputs.zero k.cfg with bin2Hex := ⟨bin⟩ }
  | .bin2Bcd => do
    let b ← k.operand .b 8
    return { Inputs.zero k.cfg with bin2Bcd := ⟨b⟩ }

/-- An operand that names no input port of the unit, if there is one. -/
def Call.strayPort (k : Call) : Option Port :=
  (k.operands.map (fun o => o.1)).find? (fun p => !((inPorts k.cfg k.unit).map (fun x => x.1)).contains p)

/-- The call presented on the ports: the state in which one step evaluates it. DESIGN CHOICE: of several faults in one
call the one reported is the configuration's, then a stray port's, then the first port's in the order of rule R48;
notes/assumptions/13.md. -/
def Call.present (k : Call) : Except BadCall State :=
  if k.cfg.legal then
    match k.strayPort with
    | some p => .error (.refusal (.unknownPort k.unit p))
    | none =>
      match k.inputs with
      | .ok x => .ok ⟨k.cfg, encode k.unit, x, none⟩
      | .error e => .error e
  else .error (.refusal .illegalConfig)

/-- The outcome of a call: one step of the machine when it fits its unit, else no evaluation at all (rule R104). -/
def Call.evaluate (k : Call) : Host.Outcome State Fault Refusal :=
  match k.present with
  | .ok s => step s
  | .error (.refusal r) => .refused r
  | .error (.cause c) => raise c

/-- The values on the output ports after an evaluation, none when no evaluation was made. -/
def State.outputs (s : State) : List (Port × DynWord) :=
  match s.outcome with
  | some o => o.ports
  | none => []

end Sys2Proof.Machine
end

