-- ==== Sys2Proof/Machine/Composition.lean ====
section
/-! DEFINITION. Compositions of units: what 60_exceptions.md rules R96 and R99 and 70_reset_and_hazards.md rules R112 and
R116 fix for a model that composes units. A composition lies outside the block (00_scope.md rule R6), so this file stands
beside the step and not in it: each node is evaluated by the harness's call, that is by one step. -/

namespace Sys2Proof.Machine

/-- What an input port is connected to. The conversions belong to the composition and not to a unit (rule R116). -/
inductive Source where
  /-- A constant of the composition. -/
  | const (v : DynWord)
  /-- A free input of the composition. -/
  | input (i : Nat)
  /-- Output port `p` of node `k`. -/
  | net (k : Nat) (p : Port)
  /-- `zext_n` of a source (rule R11). -/
  | zext (n : Nat) (s : Source)
  /-- The slice `[hi:lo]` of a source (rule R9). -/
  | slice (hi lo : Nat) (s : Source)
  deriving DecidableEq, Repr

/-- A unit instance with the parameters it is instantiated with and its connections. Instances share nothing
(20_memory.md rule R45). -/
structure Node where
  unit : Instr
  cfg : Config
  operands : List (Port × Source)
  deriving DecidableEq, Repr

/-- A composition with the values of its free inputs. The nodes may stand in any order. -/
structure Circuit where
  inputs : List DynWord
  nodes : List Node
  deriving DecidableEq, Repr

/-- The outcome of one node. -/
inductive NodeOutcome where
  /-- `Ok(outputs)`: the values on the node's output ports. -/
  | ok (outs : List (Port × DynWord))
  /-- `InvalidInput(cause)`. -/
  | invalid (cause : Cause)
  /-- An input has no value, since the node it comes from has none: not evaluated (rule R99). -/
  | notEvaluated
  /-- The call does not fit its unit; no node of a circuit that `Circuit.build` accepts has this outcome. -/
  | rejected (r : Refusal)
  deriving DecidableEq, Repr

/-- The nodes evaluated so far with their outcomes, the last first. -/
abbrev Trace := List (Nat × NodeOutcome)

/-- Why a composition is rejected before anything is evaluated. Which of several reasons is reported is the model's
choice (`Node.error`, `Circuit.build`; notes/assumptions/18.md). -/
inductive BuildError where
  /-- The node's parameters are outside the constraints of rule R7. -/
  | illegalConfig (k : Nat)
  /-- A connection names a port that is no input of the node's unit. -/
  | unknownPort (k : Nat) (p : Port)
  /-- An input port has no connection: undriven (rule R21). -/
  | undriven (k : Nat) (p : Port)
  /-- An input port has two connections. -/
  | drivenTwice (k : Nat) (p : Port)
  /-- The connection names no net of the composition, or its conversion does not exist (rules R9 and R11). -/
  | badSource (k : Nat) (p : Port)
  /-- The widths of a connection differ (20_memory.md rule R37, rule R116): `WidthMismatch`, found when the circuit is
  built (rule R104). -/
  | invalid (k : Nat) (cause : Cause)
  /-- No order evaluates every node after the nodes that feed it: refused (rule R112). -/
  | combinationalLoop
  deriving DecidableEq, Repr

/-- The outcome of a composition (rule R99). -/
inductive CompositeOutcome where
  /-- Every node's outcome is `Ok`. -/
  | ok (trace : Trace)
  /-- At least one node yielded `InvalidInput`. All the causes are reported, each with its node: rule R96 lets a model
  report any or all of them. Nodes not downstream of a fault keep their `Ok` outputs in the trace. -/
  | invalidInput (causes : List (Nat × Cause)) (trace : Trace)
  deriving DecidableEq, Repr

/-- `zext_n` of a word whose width is at most `n` (rule R11). -/
def dynZext (n : Nat) (v : DynWord) : Option DynWord :=
  if v.width ≤ n then some ⟨n, zext n v.bits⟩ else none

/-- `v[hi:lo]` where those bits exist (rule R9). -/
def dynSlice (hi lo : Nat) (v : DynWord) : Option DynWord :=
  if lo ≤ hi ∧ hi < v.width then some ⟨hi - lo + 1, slice lo (hi - lo + 1) v.bits⟩ else none

/-- The width of a source (rule R116), where it has one. -/
def Source.width (C : Circuit) : Source → Option Nat
  | .const v => some v.width
  | .input i => (C.inputs[i]?).map (fun v => v.width)
  | .net k p => (C.nodes[k]?).bind (fun nd => (outPorts nd.cfg nd.unit).lookup p)
  | .zext n s => (s.width C).bind (fun w => if w ≤ n then some n else none)
  | .slice hi lo s => (s.width C).bind (fun w => if lo ≤ hi ∧ hi < w then some (hi - lo + 1) else none)

/-- The nodes a source takes its value from. -/
def Source.feeders : Source → List Nat
  | .const _ => []
  | .input _ => []
  | .net k _ => [k]
  | .zext _ s => s.feeders
  | .slice _ _ s => s.feeders

/-- The nodes that feed a node. -/
def Node.feeders (nd : Node) : List Nat :=
  nd.operands.flatMap (fun o => o.2.feeders)

/-- Node `j` feeds node `k`. -/
def Circuit.feeds (C : Circuit) (j k : Nat) : Prop :=
  ∃ nd, C.nodes[k]? = some nd ∧ j ∈ nd.feeders

/-- The value on output port `p` of node `k`, if the node has been evaluated and has outputs. -/
def netValue (tr : Trace) (k : Nat) (p : Port) : Option DynWord :=
  match tr.lookup k with
  | some (.ok outs) => outs.lookup p
  | _ => none

/-- The value of a source, if it has one. -/
def Source.value (inputs : List DynWord) (tr : Trace) : Source → Option DynWord
  | .const v => some v
  | .input i => inputs[i]?
  | .net k p => netValue tr k p
  | .zext n s => (s.value inputs tr).bind (dynZext n)
  | .slice hi lo s => (s.value inputs tr).bind (dynSlice hi lo)

/-- The values on a node's input ports, `none` when one of them has no value. -/
def operandValues (inputs : List DynWord) (tr : Trace) : List (Port × Source) → Option (List (Port × DynWord))
  | [] => some []
  | (p, s) :: rest =>
    match s.value inputs tr, operandValues inputs tr rest with
    | some v, some vs => some ((p, v) :: vs)
    | _, _ => none

/-- The outcome of one node, given the outcomes of the nodes before it (rule R99). -/
def Node.evaluate (inputs : List DynWord) (tr : Trace) (nd : Node) : NodeOutcome :=
  match operandValues inputs tr nd.operands with
  | none => .notEvaluated
  | some vs =>
    match (Call.mk nd.unit nd.cfg vs).evaluate with
    | .next s => .ok s.outputs
    | .fault (.invalidInput cause) => .invalid cause
    | .refused r => .rejected r

/-- Evaluate the nodes in the given order. -/
def Circuit.runFrom (C : Circuit) (tr : Trace) : List Nat → Trace
  | [] => tr
  | k :: ks =>
    match C.nodes[k]? with
    | some nd => C.runFrom ((k, nd.evaluate C.inputs tr) :: tr) ks
    | none => C.runFrom tr ks

/-- Node `k` exists, has not been evaluated, and every node that feeds it has (rule R116). -/
def Circuit.ready (C : Circuit) (done : List Nat) (k : Nat) : Bool :=
  match C.nodes[k]? with
  | some nd => !done.contains k && nd.feeders.all (fun j => done.contains j)
  | none => false

/-- Every node has been evaluated. -/
def Circuit.allDone (C : Circuit) (done : List Nat) : Bool :=
  (List.range C.nodes.length).all (fun k => done.contains k)

/-- An admissible order of rule R116, after the nodes in `done`: each node once, after all the nodes that feed it, and
no node left out. -/
def Circuit.admissibleFrom (C : Circuit) (done : List Nat) : List Nat → Bool
  | [] => C.allDone done
  | k :: ks => C.ready done k && C.admissibleFrom (k :: done) ks

/-- An admissible order of the whole composition. -/
def Circuit.admissible (C : Circuit) (order : List Nat) : Bool :=
  C.admissibleFrom [] order

/-- An order built by taking the first node that is ready, again and again; `none` when none is ready and some node is
left. -/
def Circuit.scheduleFrom (C : Circuit) : Nat → List Nat → Option (List Nat)
  | 0, done => if C.allDone done then some [] else none
  | fuel + 1, done =>
    match (List.range C.nodes.length).find? (C.ready done) with
    | some k => (C.scheduleFrom fuel (k :: done)).map (fun ks => k :: ks)
    | none => if C.allDone done then some [] else none

/-- An order for the whole composition, `none` when it has a combinational loop (rule R112). -/
def Circuit.schedule (C : Circuit) : Option (List Nat) :=
  C.scheduleFrom C.nodes.length []

/-- What is wrong with the connection of input port `p`, of width `w`, of node `k`. -/
def Node.portError (C : Circuit) (k : Nat) (nd : Node) (p : Port) (w : Nat) : Option BuildError :=
  match nd.operands.filter (fun o => o.1 == p) with
  | [] => some (.undriven k p)
  | [(_, s)] =>
    match s.width C with
    | none => some (.badSource k p)
    | some v => if v = w then none else some (.invalid k (.widthMismatch nd.unit p w v))
  | _ => some (.drivenTwice k p)

/-- What is wrong with node `k`. DESIGN CHOICE: of several faults of one node the one reported is the configuration's,
then the first connection's that names a port the unit has not, then the first port's in the order of rule R48 whose
connection does not fit; rules R37, R58 and R104 say only that the circuit is rejected; notes/assumptions/18.md. -/
def Node.error (C : Circuit) (k : Nat) (nd : Node) : Option BuildError :=
  if nd.cfg.legal then
    match (nd.operands.map (fun o => o.1)).find? (fun p => !((inPorts nd.cfg nd.unit).map (fun x => x.1)).contains p) with
    | some p => some (.unknownPort k p)
    | none => (inPorts nd.cfg nd.unit).findSome? (fun x => nd.portError C k x.1 x.2)
  else some (.illegalConfig k)

/-- The static check of a composition: the connections of every node (rules R37, R58 and R116), then the absence of a
loop (rule R112). It answers an admissible order. DESIGN CHOICE: of several faults of one composition the one reported is
the first faulty node's in list order, and a combinational loop is reported only where every connection fits; rules
R37, R104 and R112 say only that the composition is rejected; notes/assumptions/18.md. -/
def Circuit.build (C : Circuit) : Except BuildError (List Nat) :=
  match C.nodes.zipIdx.findSome? (fun x => x.1.error C x.2) with
  | some e => .error e
  | none =>
    match C.schedule with
    | some order => .ok order
    | none => .error .combinationalLoop

/-- The causes in a trace, each with its node. -/
def causesOf (tr : Trace) : List (Nat × Cause) :=
  tr.filterMap (fun x =>
    match x.2 with
    | .invalid cause => some (x.1, cause)
    | _ => none)

/-- The outcome of a composition whose nodes had these outcomes (rule R99). -/
def compositeOutcome (tr : Trace) : CompositeOutcome :=
  match causesOf tr with
  | [] => .ok tr
  | causes => .invalidInput causes tr

/-- One evaluation of a composition (rules R99, R112 and R116). -/
def Circuit.evaluate (C : Circuit) : Except BuildError CompositeOutcome :=
  match C.build with
  | .ok order => .ok (compositeOutcome (C.runFrom [] order))
  | .error e => .error e

end Sys2Proof.Machine
end

