-- ==== Sys2Proof/Safety.lean ====
section
/-! DEFINITION. The terms statements use: the caller contracts, which outputs are lawful, the invariant of the machine,
and an evaluation as its caller sees it. -/

namespace Sys2Proof.Machine

/-- A row of rule R47 with its port signature of rule R48. -/
def unitRow (pattern : Word 4) (i : Instr) (ins outs : Config → List (Port × Nat)) : Prop :=
  decode pattern = .ok i ∧ encode i = pattern ∧ ∀ c, inPorts c i = ins c ∧ outPorts c i = outs c

/-- The caller contract of a unit on its input values, under its parameters (70_reset_and_hazards.md rule R109,
60_exceptions.md rule R92): a selector in range for a multiplexer whose policy is `invalid`, a number below 100 for
Bin2Bcd, nothing for the others. -/
def contractHolds (i : Instr) (s : State) : Prop :=
  match i with
  | .mux2way => s.cfg.muxOorPolicy = .zero ∨ uint s.inputs.mux2way.sel < 2
  | .mux4way => s.cfg.muxOorPolicy = .zero ∨ uint s.inputs.mux4way.sel < 4
  | .mux8way => s.cfg.muxOorPolicy = .zero ∨ uint s.inputs.mux8way.sel < 8
  | .bin2Bcd => uint s.inputs.bin2Bcd.b < 100
  | .and16 | .or8Way | .orNWay | .barrelShifter | .deMux2way | .deMux4way | .deMux8way | .bin2Hex => True

/-- The cause an evaluation that violates its contract raises, with the value recorded (60_exceptions.md rule R91);
`none` for the units that never raise (rule R92). -/
def violationCause (i : Instr) (s : State) : Option Cause :=
  match i with
  | .mux2way => some (.selectorOutOfRange .mux2way (uint s.inputs.mux2way.sel))
  | .mux4way => some (.selectorOutOfRange .mux4way (uint s.inputs.mux4way.sel))
  | .mux8way => some (.selectorOutOfRange .mux8way (uint s.inputs.mux8way.sel))
  | .bin2Bcd => some (.bcdInputOutOfRange (uint s.inputs.bin2Bcd.b))
  | .and16 | .or8Way | .orNWay | .barrelShifter | .deMux2way | .deMux4way | .deMux8way | .bin2Hex => none

/-- The sixteen patterns of 44_bin2hex.md rule R82 as the numbers of its column "hex". -/
def segmentPatterns : List Nat :=
  [0x40, 0x79, 0x24, 0x30, 0x19, 0x12, 0x02, 0x78, 0x00, 0x10, 0x08, 0x03, 0x46, 0x21, 0x06, 0x0E]

/-- At most one word of the list is nonzero (43_demux.md rules R76 and R80). -/
def atMostOneNonzero {n : Nat} (ws : List (Word n)) : Prop :=
  (ws.filter (fun w => w ≠ 0#n)).length ≤ 1

/-- What the spec says of the outputs of any evaluation whatever its inputs: And16's form follows its mode (rule R27), a
demultiplexer drives at most one nonzero word (rule R80), Bin2Hex shows one of the sixteen patterns (rule R82), the
digits are decimal (10_state.md rule R24). -/
def Outputs.lawful {c : Config} : Outputs c → Prop
  | .and16 (.word _) => c.and16Mode = .bitwise
  | .and16 (.bit _) => c.and16Mode = .logical
  | .deMux2way q0 q1 => atMostOneNonzero [q0, q1]
  | .deMux4way q0 q1 q2 q3 => atMostOneNonzero [q0, q1, q2, q3]
  | .deMux8way q0 q1 q2 q3 q4 q5 q6 q7 => atMostOneNonzero [q0, q1, q2, q3, q4, q5, q6, q7]
  | .bin2Hex seg => uint seg ∈ segmentPatterns
  | .bin2Bcd bcd1 bcd0 => uint bcd1 ≤ 9 ∧ uint bcd0 ≤ 9
  | .or8Way _ | .orNWay _ | .barrelShifter _ | .mux2way _ | .mux4way _ | .mux8way _ => True

/-- The recorded outputs are those the unit gives for the input values present: evaluating it again changes nothing
(20_memory.md rule R39; 70_reset_and_hazards.md rules R107 and R110: no stale output). -/
def State.settled (s : State) : Prop :=
  ∀ o, s.outcome = some o → exec o.unit s = .next s

/-- The invariant: legal parameters (rule R7), lawful outputs, and no stale output. -/
structure State.Inv (s : State) : Prop where
  legal : s.cfg.legal = true
  lawful : ∀ o, s.outcome = some o → o.lawful
  settled : s.settled

/-- An evaluation as its caller sees it: the unit and the words on its output ports, or the reason there are none. -/
inductive Report where
  | ok (unit : Instr) (outs : List (Port × DynWord))
  | invalidInput (cause : Cause)
  | refused (r : Refusal)
  /-- A next state with no outcome recorded; no evaluation of this machine answers it. -/
  | noOutcome
  deriving DecidableEq, Repr

/-- What the caller sees of the outcome of a step. -/
def reportOf (o : Host.Outcome State Fault Refusal) : Report :=
  match o with
  | .next s =>
    match s.outcome with
    | some o => .ok o.unit o.ports
    | none => .noOutcome
  | .fault (.invalidInput cause) => .invalidInput cause
  | .refused r => .refused r

/-- Two sets of input values agree on the ports of unit `i`. -/
def Inputs.agreeOn {c : Config} (i : Instr) (x y : Inputs c) : Prop :=
  match i with
  | .and16 => x.and16 = y.and16
  | .or8Way => x.or8Way = y.or8Way
  | .orNWay => x.orNWay = y.orNWay
  | .barrelShifter => x.barrelShifter = y.barrelShifter
  | .mux2way => x.mux2way = y.mux2way
  | .mux4way => x.mux4way = y.mux4way
  | .mux8way => x.mux8way = y.mux8way
  | .deMux2way => x.deMux2way = y.deMux2way
  | .deMux4way => x.deMux4way = y.deMux4way
  | .deMux8way => x.deMux8way = y.deMux8way
  | .bin2Hex => x.bin2Hex = y.bin2Hex
  | .bin2Bcd => x.bin2Bcd = y.bin2Bcd

end Sys2Proof.Machine
end

