-- ==== Sys2Proof/Certificates/Slice0/Obligations.lean ====
section
/-! DEFINITION. The statements for the provers. Each docstring names the rule of spec/ it formalises. A statement of a
unit's result has as its conclusion that exec answers a next state in which only the recorded outcome differs: it is
the unit's completion and its frame in one. -/

open Sys2Proof Sys2Proof.Machine

/-! The unit index and the step. -/

/-- Rules R47 and R48: the twelve indices with their units and port signatures, and the four refused indices. -/
def Obligations.UnitIndicesAndSignatures : Prop :=
  unitRow 0b0000#4 .and16 (fun _ => [(.a, 16), (.b, 16)])
    (fun c => [(.q, if c.and16Mode = .logical then 1 else 16)]) ∧
  unitRow 0b0001#4 .or8Way (fun _ => [(.a, 1), (.b, 1), (.c, 1), (.d, 1), (.e, 1), (.f, 1), (.g, 1), (.h, 1)])
    (fun _ => [(.q, 1)]) ∧
  unitRow 0b0010#4 .orNWay (fun _ => [(.a, 16)]) (fun _ => [(.q, 1)]) ∧
  unitRow 0b0011#4 .barrelShifter (fun c => [(.a, 16), (.dir, 1), (.size, c.sizeW)]) (fun _ => [(.q, 16)]) ∧
  unitRow 0b0100#4 .mux2way (fun c => [(.a, c.muxW), (.b, c.muxW), (.sel, 2)]) (fun c => [(.q, c.muxW)]) ∧
  unitRow 0b0101#4 .mux4way
    (fun c => [(.a, c.muxW), (.b, c.muxW), (.c, c.muxW), (.d, c.muxW), (.sel, c.mux4SelW)])
    (fun c => [(.q, c.muxW)]) ∧
  unitRow 0b0110#4 .mux8way
    (fun c => [(.a, c.muxW), (.b, c.muxW), (.c, c.muxW), (.d, c.muxW), (.e, c.muxW), (.f, c.muxW), (.g, c.muxW),
      (.h, c.muxW), (.sel, c.mux8SelW)])
    (fun c => [(.q, c.muxW)]) ∧
  unitRow 0b0111#4 .deMux2way (fun c => [(.a, c.demuxW), (.sel, c.demux2SelW)])
    (fun c => [(.q0, c.demuxW), (.q1, c.demuxW)]) ∧
  unitRow 0b1000#4 .deMux4way (fun c => [(.a, c.demuxW), (.sel, c.demux4SelW)])
    (fun c => [(.q0, c.demuxW), (.q1, c.demuxW), (.q2, c.demuxW), (.q3, c.demuxW)]) ∧
  unitRow 0b1001#4 .deMux8way (fun c => [(.a, c.demuxW), (.sel, 3)])
    (fun c => [(.q0, c.demuxW), (.q1, c.demuxW), (.q2, c.demuxW), (.q3, c.demuxW), (.q4, c.demuxW), (.q5, c.demuxW),
      (.q6, c.demuxW), (.q7, c.demuxW)]) ∧
  unitRow 0b1010#4 .bin2Hex (fun c => [(.bin, c.binW)]) (fun _ => [(.seg, 7)]) ∧
  unitRow 0b1011#4 .bin2Bcd (fun _ => [(.b, 8)]) (fun _ => [(.bcd1, 4), (.bcd0, 4)]) ∧
  ∀ u : Word 4, 12 ≤ u.toNat → decode u = .error (.unassigned u)

/-- Every unit's index decodes to it and to no other unit, and an index that decodes is the one its unit encodes to. -/
def Obligations.EncodeAndDecodeAgree : Prop :=
  (∀ i : Instr, Sys2Proof.Laws.UidRoundTrip.Statement i) ∧ ∀ (u : Word 4) (i : Instr), decode u = .ok i → encode i = u

/-- When the unit index decodes to a unit, the step is the evaluation of that unit at that state, with nothing around
it: there is no program counter to move (rule R20). -/
def Obligations.StepEvaluatesTheUnitNamed : Prop :=
  ∀ (s : State) (i : Instr), decode s.uid = .ok i → step s = exec i s

/-- An unassigned index is refused before any evaluation (rule R47). -/
def Obligations.UnassignedIndexIsRefused : Prop :=
  ∀ s : State, 12 ≤ s.uid.toNat → step s = .refused (.unassignedUid s.uid)

/-- A table word that holds a unit's index in its low four bits, whatever stands above them up to the word's width, is
decoded to that unit and, put where the step looks, is evaluated by it; nothing else of the state changes. That the
bits above are ignored is the model's reading (notes/assumptions/6.md). -/
def Obligations.TableWordIsEvaluated : Prop :=
  ∀ (s : State) (i : Instr) (nbits high : Nat), 4 ≤ nbits →
    let w := (encode i).toNat + 16 * high
    decodeTableWord nbits w = some i ∧ s.withFetchWord nbits w = { s with uid := encode i } ∧
      step (s.withFetchWord nbits w) = exec i { s with uid := encode i }

/-! Logical reduction (40_logic_reduction.md). -/

/-- Rule R59: in bit-wise mode every bit of `q` is the AND of the bits of `a` and `b` at its position. -/
def Obligations.And16BitwiseResult : Prop :=
  encode .and16 = 0b0000#4 ∧ decode 0b0000#4 = .ok .and16 ∧
  ∀ s : State, s.cfg.and16Mode = .bitwise →
    ∃ q : Word 16, exec .and16 s = .next { s with outcome := some (.and16 (.word q)) } ∧
      (∀ i : Nat, i < 16 → q.getLsbD i = (s.inputs.and16.a.getLsbD i && s.inputs.and16.b.getLsbD i)) ∧
      q = s.inputs.and16.a &&& s.inputs.and16.b

/-- Rule R60: in logical mode `q` is one bit, 1 exactly when both words are nonzero; read on a 16-bit port it is
`zext_16` of that bit. -/
def Obligations.And16LogicalResult : Prop :=
  encode .and16 = 0b0000#4 ∧ decode 0b0000#4 = .ok .and16 ∧
  ∀ s : State, s.cfg.and16Mode = .logical →
    ∃ q : Bit, exec .and16 s = .next { s with outcome := some (.and16 (.bit q)) } ∧
      (q = 1#1 ↔ s.inputs.and16.a.toNat ≠ 0 ∧ s.inputs.and16.b.toNat ≠ 0) ∧
      (And16Out.bit q).asWord.toNat = q.toNat

/-- The last sentences of rule R60: on the same inputs the two modes agree, the logical result read as `zext_16`, when
a word is zero and on exactly those nonzero pairs whose bit-wise AND is 1. -/
def Obligations.And16ModesAgreeExactlyWhere : Prop :=
  ∀ s t : State, s.cfg.and16Mode = .bitwise → t.cfg.and16Mode = .logical → t.inputs.and16 = s.inputs.and16 →
    ∃ p q : And16Out, exec .and16 s = .next { s with outcome := some (.and16 p) } ∧
      exec .and16 t = .next { t with outcome := some (.and16 q) } ∧
      (p.asWord = q.asWord ↔ s.inputs.and16.a = 0#16 ∨ s.inputs.and16.b = 0#16 ∨
        s.inputs.and16.a &&& s.inputs.and16.b = 0x0001#16)

/-- Rule R61: `q` is the OR of the eight bits; it is 0 exactly when all eight are 0. -/
def Obligations.Or8WayResult : Prop :=
  encode .or8Way = 0b0001#4 ∧ decode 0b0001#4 = .ok .or8Way ∧
  ∀ s : State,
    let x := s.inputs.or8Way
    ∃ q : Bit, exec .or8Way s = .next { s with outcome := some (.or8Way q) } ∧
      q = x.a ||| x.b ||| x.c ||| x.d ||| x.e ||| x.f ||| x.g ||| x.h ∧
      (q = 0#1 ↔ x.a = 0#1 ∧ x.b = 0#1 ∧ x.c = 0#1 ∧ x.d = 0#1 ∧ x.e = 0#1 ∧ x.f = 0#1 ∧ x.g = 0#1 ∧ x.h = 0#1)

/-- Rule R62: `q` is 1 exactly when some bit of `a` is 1, that is when `uint(a)` is not 0. -/
def Obligations.OrNWayResult : Prop :=
  encode .orNWay = 0b0010#4 ∧ decode 0b0010#4 = .ok .orNWay ∧
  ∀ s : State, ∃ q : Bit, exec .orNWay s = .next { s with outcome := some (.orNWay q) } ∧
    (q = 1#1 ↔ ∃ i : Nat, i < 16 ∧ s.inputs.orNWay.a.getLsbD i = true) ∧
    (q = 1#1 ↔ s.inputs.orNWay.a.toNat ≠ 0)

/-- Rule R64: the laws of the family, on the functions the units compute; the first clause says that they compute
them. -/
def Obligations.LogicReductionLaws : Prop :=
  (∀ s : State,
    (s.cfg.and16Mode = .bitwise → exec .and16 s =
      .next { s with outcome := some (.and16 (.word (and16Bitwise s.inputs.and16.a s.inputs.and16.b))) }) ∧
    (s.cfg.and16Mode = .logical → exec .and16 s =
      .next { s with outcome := some (.and16 (.bit (and16Logical s.inputs.and16.a s.inputs.and16.b))) }) ∧
    (let x := s.inputs.or8Way
     exec .or8Way s = .next { s with outcome := some (.or8Way (or8Way x.a x.b x.c x.d x.e x.f x.g x.h)) }) ∧
    exec .orNWay s = .next { s with outcome := some (.orNWay (orNWay s.inputs.orNWay.a)) }) ∧
  (∀ a b : Word 16, and16Bitwise a b = and16Bitwise b a) ∧
  (∀ a b c : Word 16, and16Bitwise a (and16Bitwise b c) = and16Bitwise (and16Bitwise a b) c) ∧
  (∀ a : Word 16, and16Bitwise a a = a ∧ and16Bitwise a 0xFFFF#16 = a ∧ and16Bitwise a 0#16 = 0#16) ∧
  (∀ a b : Word 16, (and16Bitwise a b).toNat ≤ min a.toNat b.toNat) ∧
  (∀ a : Word 16, orNWay a = or8Way (bitAt a 0 ||| bitAt a 8) (bitAt a 1 ||| bitAt a 9) (bitAt a 2 ||| bitAt a 10)
    (bitAt a 3 ||| bitAt a 11) (bitAt a 4 ||| bitAt a 12) (bitAt a 5 ||| bitAt a 13) (bitAt a 6 ||| bitAt a 14)
    (bitAt a 7 ||| bitAt a 15)) ∧
  (∀ a : Word 16, orNWay a = 0#1 ↔ a = 0#16) ∧
  (∀ a b : Word 16, orNWay (and16Bitwise a b) = 1#1 ↔
    ∃ i : Nat, i < 16 ∧ a.getLsbD i = true ∧ b.getLsbD i = true) ∧
  (∀ a b : Word 16, and16Logical a b = orNWay a &&& orNWay b)

/-! BarrelShifter (41_barrel_shifter.md). -/

/-- Rule R65: zero from an amount of 16 up; else floor division by, or multiplication modulo 2^16 by, a power of two. -/
def Obligations.BarrelShifterResult : Prop :=
  encode .barrelShifter = 0b0011#4 ∧ decode 0b0011#4 = .ok .barrelShifter ∧
  ∀ s : State,
    let x := s.inputs.barrelShifter
    let n := x.size.toNat
    ∃ q : Word 16, exec .barrelShifter s = .next { s with outcome := some (.barrelShifter q) } ∧
      (16 ≤ n → q = 0#16) ∧
      (n < 16 → x.dir = 0#1 → q.toNat = x.a.toNat / 2 ^ n) ∧
      (n < 16 → x.dir = 1#1 → q.toNat = x.a.toNat * 2 ^ n % 2 ^ 16)

/-- Rule R66: the bit-level form, for every amount of every port width. -/
def Obligations.BarrelShifterBitByBit : Prop :=
  ∀ s : State,
    let x := s.inputs.barrelShifter
    let n := x.size.toNat
    ∃ q : Word 16, exec .barrelShifter s = .next { s with outcome := some (.barrelShifter q) } ∧
      (x.dir = 0#1 → ∀ i : Nat, i < 16 → q.getLsbD i = if i + n ≤ 15 then x.a.getLsbD (i + n) else false) ∧
      (x.dir = 1#1 → ∀ i : Nat, i < 16 → q.getLsbD i = if n ≤ i then x.a.getLsbD (i - n) else false)

/-- Rule R68: the laws of the shift on the function the unit computes (the first clause says that it computes it), and
the reachable amounts. -/
def Obligations.BarrelShifterLaws : Prop :=
  (∀ s : State,
    let x := s.inputs.barrelShifter
    exec .barrelShifter s = .next { s with outcome := some (.barrelShifter (barrelShift x.a x.dir x.size.toNat)) }) ∧
  (∀ (a : Word 16) (dir : Bit) (m n : Nat), barrelShift (barrelShift a dir m) dir n = barrelShift a dir (m + n)) ∧
  (∀ (a : Word 16) (n : Nat), n ≤ 15 →
    barrelShift (barrelShift a 1#1 n) 0#1 n = a &&& trunc 16 (0xFFFF >>> n)) ∧
  (∀ (a : Word 16) (n : Nat), n ≤ 15 →
    barrelShift (barrelShift a 0#1 n) 1#1 n = a &&& trunc 16 (0xFFFF <<< n)) ∧
  (∀ (a : Word 16) (n : Nat), (barrelShift a 0#1 n).toNat ≤ a.toNat) ∧
  (∀ (a : Word 16) (dir : Bit) (n : Nat), 16 ≤ n → orNWay (barrelShift a dir n) = 0#1) ∧
  (∀ s : State, s.inputs.barrelShifter.size.toNat ≤ 2 ^ s.cfg.sizeW - 1)

/-! Multiplexers (42_mux.md). -/

/-- Rule R70: both words, and `InvalidInput` for a selector of 2 or 3 under the default policy. -/
def Obligations.Mux2wayResult : Prop :=
  encode .mux2way = 0b0100#4 ∧ decode 0b0100#4 = .ok .mux2way ∧
  ∀ s : State,
    let x := s.inputs.mux2way
    let k := x.sel.toNat
    (k = 0 → exec .mux2way s = .next { s with outcome := some (.mux2way x.a) }) ∧
    (k = 1 → exec .mux2way s = .next { s with outcome := some (.mux2way x.b) }) ∧
    (2 ≤ k → s.cfg.muxOorPolicy = .invalid →
      exec .mux2way s = .fault (.invalidInput (.selectorOutOfRange .mux2way k)))

/-- Rule R71: the four words, and `InvalidInput` for a selector of 4 and above under the default policy. -/
def Obligations.Mux4wayResult : Prop :=
  encode .mux4way = 0b0101#4 ∧ decode 0b0101#4 = .ok .mux4way ∧
  ∀ s : State,
    let x := s.inputs.mux4way
    let k := x.sel.toNat
    (k = 0 → exec .mux4way s = .next { s with outcome := some (.mux4way x.a) }) ∧
    (k = 1 → exec .mux4way s = .next { s with outcome := some (.mux4way x.b) }) ∧
    (k = 2 → exec .mux4way s = .next { s with outcome := some (.mux4way x.c) }) ∧
    (k = 3 → exec .mux4way s = .next { s with outcome := some (.mux4way x.d) }) ∧
    (4 ≤ k → s.cfg.muxOorPolicy = .invalid →
      exec .mux4way s = .fault (.invalidInput (.selectorOutOfRange .mux4way k)))

/-- Rule R72: the `k`-th of the eight words; with the 3-bit selector every value selects one, and a selector built wider
falls under rule R73 from 8 up. -/
def Obligations.Mux8wayResult : Prop :=
  encode .mux8way = 0b0110#4 ∧ decode 0b0110#4 = .ok .mux8way ∧
  ∀ s : State,
    let x := s.inputs.mux8way
    let k := x.sel.toNat
    (∀ q, [x.a, x.b, x.c, x.d, x.e, x.f, x.g, x.h][k]? = some q →
      exec .mux8way s = .next { s with outcome := some (.mux8way q) }) ∧
    (s.cfg.mux8SelW = 3 → ∃ q, [x.a, x.b, x.c, x.d, x.e, x.f, x.g, x.h][k]? = some q ∧
      exec .mux8way s = .next { s with outcome := some (.mux8way q) }) ∧
    (8 ≤ k → s.cfg.muxOorPolicy = .invalid →
      exec .mux8way s = .fault (.invalidInput (.selectorOutOfRange .mux8way k))) ∧
    (8 ≤ k → s.cfg.muxOorPolicy = .zero → exec .mux8way s = .next { s with outcome := some (.mux8way 0#_) })

/-- Rule R73: for an out-of-range selector of Mux2way or Mux4way the policy `invalid` gives `InvalidInput` and no output
at all, whatever the data; the policy `zero` gives `Ok` with `q = 0`. -/
def Obligations.MuxOutOfRangePolicies : Prop :=
  ∀ s : State,
    (s.cfg.muxOorPolicy = .invalid →
      (2 ≤ s.inputs.mux2way.sel.toNat → exec .mux2way s =
        .fault (.invalidInput (.selectorOutOfRange .mux2way s.inputs.mux2way.sel.toNat))) ∧
      (4 ≤ s.inputs.mux4way.sel.toNat → exec .mux4way s =
        .fault (.invalidInput (.selectorOutOfRange .mux4way s.inputs.mux4way.sel.toNat)))) ∧
    (s.cfg.muxOorPolicy = .zero →
      (2 ≤ s.inputs.mux2way.sel.toNat → exec .mux2way s = .next { s with outcome := some (.mux2way 0#_) }) ∧
      (4 ≤ s.inputs.mux4way.sel.toNat → exec .mux4way s = .next { s with outcome := some (.mux4way 0#_) }))

/-- Rule R74: equal data are answered whatever the in-range selector; under the default policy the outcome is
`InvalidInput` if and only if the selector is out of range; a narrower multiplexer agrees with a wider one on its own
range. -/
def Obligations.MuxLaws : Prop :=
  ∀ s : State,
    let x := s.inputs.mux2way
    let y := s.inputs.mux4way
    let z := s.inputs.mux8way
    (∀ v, x.a = v → x.b = v → x.sel.toNat < 2 → exec .mux2way s = .next { s with outcome := some (.mux2way v) }) ∧
    (∀ v, y.a = v → y.b = v → y.c = v → y.d = v → y.sel.toNat < 4 →
      exec .mux4way s = .next { s with outcome := some (.mux4way v) }) ∧
    (∀ v, z.a = v → z.b = v → z.c = v → z.d = v → z.e = v → z.f = v → z.g = v → z.h = v → z.sel.toNat < 8 →
      exec .mux8way s = .next { s with outcome := some (.mux8way v) }) ∧
    (s.cfg.muxOorPolicy = .invalid →
      ((∃ c, exec .mux2way s = .fault (.invalidInput c)) ↔ 2 ≤ x.sel.toNat) ∧
      ((∃ c, exec .mux4way s = .fault (.invalidInput c)) ↔ 4 ≤ y.sel.toNat) ∧
      ((∃ c, exec .mux8way s = .fault (.invalidInput c)) ↔ 8 ≤ z.sel.toNat)) ∧
    (y.a = x.a → y.b = x.b → y.sel.toNat = x.sel.toNat → x.sel.toNat < 2 →
      ∃ q, exec .mux2way s = .next { s with outcome := some (.mux2way q) } ∧
        exec .mux4way s = .next { s with outcome := some (.mux4way q) }) ∧
    (z.a = y.a → z.b = y.b → z.c = y.c → z.d = y.d → z.sel.toNat = y.sel.toNat → y.sel.toNat < 4 →
      ∃ q, exec .mux4way s = .next { s with outcome := some (.mux4way q) } ∧
        exec .mux8way s = .next { s with outcome := some (.mux8way q) })

/-! Demultiplexers (43_demux.md). -/

/-- Rule R76: both outputs, for every selector of every port width. -/
def Obligations.DeMux2wayResult : Prop :=
  encode .deMux2way = 0b0111#4 ∧ decode 0b0111#4 = .ok .deMux2way ∧
  ∀ s : State,
    let x := s.inputs.deMux2way
    let k := x.sel.toNat
    exec .deMux2way s =
      .next { s with outcome := some (.deMux2way (if k = 0 then x.a else 0#_) (if k = 1 then x.a else 0#_)) }

/-- Rule R77: the four outputs, for every selector of every port width. -/
def Obligations.DeMux4wayResult : Prop :=
  encode .deMux4way = 0b1000#4 ∧ decode 0b1000#4 = .ok .deMux4way ∧
  ∀ s : State,
    let x := s.inputs.deMux4way
    let k := x.sel.toNat
    exec .deMux4way s =
      .next { s with outcome := some (.deMux4way (if k = 0 then x.a else 0#_) (if k = 1 then x.a else 0#_)
        (if k = 2 then x.a else 0#_) (if k = 3 then x.a else 0#_)) }

/-- Rule R78: the eight outputs; one of them is always selected. -/
def Obligations.DeMux8wayResult : Prop :=
  encode .deMux8way = 0b1001#4 ∧ decode 0b1001#4 = .ok .deMux8way ∧
  ∀ s : State,
    let x := s.inputs.deMux8way
    let k := x.sel.toNat
    k < 8 ∧ exec .deMux8way s =
      .next { s with outcome := some (.deMux8way (if k = 0 then x.a else 0#_) (if k = 1 then x.a else 0#_)
        (if k = 2 then x.a else 0#_) (if k = 3 then x.a else 0#_) (if k = 4 then x.a else 0#_)
        (if k = 5 then x.a else 0#_) (if k = 6 then x.a else 0#_) (if k = 7 then x.a else 0#_)) }

/-- Rule R79: an out-of-range selector drives every output to zero, and is no error. -/
def Obligations.DemuxOutOfRangeIsAllZero : Prop :=
  ∀ s : State,
    (2 ≤ s.inputs.deMux2way.sel.toNat →
      exec .deMux2way s = .next { s with outcome := some (.deMux2way 0#_ 0#_) }) ∧
    (4 ≤ s.inputs.deMux4way.sel.toNat →
      exec .deMux4way s = .next { s with outcome := some (.deMux4way 0#_ 0#_ 0#_ 0#_) })

/-- Rule R80: at most one output of a demultiplexer is nonzero, and the OR of all of them is the word routed when the
selector is in range and zero otherwise. -/
def Obligations.DemuxOutputsOrToTheWord : Prop :=
  ∀ s : State,
    (∃ q0 q1, exec .deMux2way s = .next { s with outcome := some (.deMux2way q0 q1) } ∧ atMostOneNonzero [q0, q1] ∧
      q0 ||| q1 = if s.inputs.deMux2way.sel.toNat < 2 then s.inputs.deMux2way.a else 0#_) ∧
    (∃ q0 q1 q2 q3, exec .deMux4way s = .next { s with outcome := some (.deMux4way q0 q1 q2 q3) } ∧
      atMostOneNonzero [q0, q1, q2, q3] ∧
      q0 ||| q1 ||| q2 ||| q3 = if s.inputs.deMux4way.sel.toNat < 4 then s.inputs.deMux4way.a else 0#_) ∧
    (∃ q0 q1 q2 q3 q4 q5 q6 q7,
      exec .deMux8way s = .next { s with outcome := some (.deMux8way q0 q1 q2 q3 q4 q5 q6 q7) } ∧
      atMostOneNonzero [q0, q1, q2, q3, q4, q5, q6, q7] ∧
      q0 ||| q1 ||| q2 ||| q3 ||| q4 ||| q5 ||| q6 ||| q7 = s.inputs.deMux8way.a)

/-- Rule R80: the outputs of a demultiplexer fed in index order to the multiplexer of the same number of ways return the
word when the two selectors are equal and in range, and zero when they differ and are in range. -/
def Obligations.MuxOfDemuxReturnsTheWord : Prop :=
  (∀ (s t : State) (q0 q1 : Word s.cfg.demuxW),
    exec .deMux2way s = .next { s with outcome := some (.deMux2way q0 q1) } →
    t.inputs.mux2way.data.map BitVec.toNat = [q0, q1].map BitVec.toNat →
    s.inputs.deMux2way.sel.toNat < 2 → t.inputs.mux2way.sel.toNat < 2 →
    ∃ q, exec .mux2way t = .next { t with outcome := some (.mux2way q) } ∧
      q.toNat = if t.inputs.mux2way.sel.toNat = s.inputs.deMux2way.sel.toNat then s.inputs.deMux2way.a.toNat else 0) ∧
  (∀ (s t : State) (q0 q1 q2 q3 : Word s.cfg.demuxW),
    exec .deMux4way s = .next { s with outcome := some (.deMux4way q0 q1 q2 q3) } →
    t.inputs.mux4way.data.map BitVec.toNat = [q0, q1, q2, q3].map BitVec.toNat →
    s.inputs.deMux4way.sel.toNat < 4 → t.inputs.mux4way.sel.toNat < 4 →
    ∃ q, exec .mux4way t = .next { t with outcome := some (.mux4way q) } ∧
      q.toNat = if t.inputs.mux4way.sel.toNat = s.inputs.deMux4way.sel.toNat then s.inputs.deMux4way.a.toNat else 0) ∧
  (∀ (s t : State) (q0 q1 q2 q3 q4 q5 q6 q7 : Word s.cfg.demuxW),
    exec .deMux8way s = .next { s with outcome := some (.deMux8way q0 q1 q2 q3 q4 q5 q6 q7) } →
    t.inputs.mux8way.data.map BitVec.toNat = [q0, q1, q2, q3, q4, q5, q6, q7].map BitVec.toNat →
    t.inputs.mux8way.sel.toNat < 8 →
    ∃ q, exec .mux8way t = .next { t with outcome := some (.mux8way q) } ∧
      q.toNat = if t.inputs.mux8way.sel.toNat = s.inputs.deMux8way.sel.toNat then s.inputs.deMux8way.a.toNat else 0)

/-! Bin2Hex (44_bin2hex.md) and Bin2Bcd (45_bin2bcd.md). -/

/-- Rules R81 and R82: the pattern is the entry of the 32-key table (its column "hex") at the key, the low five bits of
the input. -/
def Obligations.Bin2HexTable : Prop :=
  encode .bin2Hex = 0b1010#4 ∧ decode 0b1010#4 = .ok .bin2Hex ∧
  ∀ s : State, ∃ seg : Word 7, exec .bin2Hex s = .next { s with outcome := some (.bin2Hex seg) } ∧
    [0x40, 0x79, 0x24, 0x30, 0x19, 0x12, 0x02, 0x78, 0x00, 0x10, 0x08, 0x03, 0x46, 0x21, 0x06, 0x0E,
     0x0E, 0x0E, 0x0E, 0x0E, 0x0E, 0x0E, 0x0E, 0x0E, 0x0E, 0x0E, 0x0E, 0x0E, 0x0E, 0x0E, 0x0E, 0x0E][
      s.inputs.bin2Hex.bin.toNat % 32]? = some seg.toNat

/-- Rule R83: only the low five bits of a port of any width are consulted: two inputs, on ports of any two widths, that
agree on them give the same pattern, and none is an error; the fifth of them, bit 4, takes part: where it is set the
pattern is the default. -/
def Obligations.Bin2HexConsultsLowFiveBits : Prop :=
  (∀ s t : State, (∀ i : Nat, i < 5 → s.inputs.bin2Hex.bin.getLsbD i = t.inputs.bin2Hex.bin.getLsbD i) →
    ∃ seg : Word 7, exec .bin2Hex s = .next { s with outcome := some (.bin2Hex seg) } ∧
      exec .bin2Hex t = .next { t with outcome := some (.bin2Hex seg) }) ∧
  ∀ s : State, s.inputs.bin2Hex.bin.getLsbD 4 = true →
    exec .bin2Hex s = .next { s with outcome := some (.bin2Hex 0b0001110#7) }

/-- Rule R86: below 100 the digits are the quotient and the remainder by ten, from 100 up the evaluation raises. -/
def Obligations.Bin2BcdResult : Prop :=
  encode .bin2Bcd = 0b1011#4 ∧ decode 0b1011#4 = .ok .bin2Bcd ∧
  ∀ s : State,
    let n := s.inputs.bin2Bcd.b.toNat
    (n < 100 → ∃ tens ones : Word 4, exec .bin2Bcd s = .next { s with outcome := some (.bin2Bcd tens ones) } ∧
      tens.toNat = n / 10 ∧ ones.toNat = n % 10) ∧
    (100 ≤ n → exec .bin2Bcd s = .fault (.invalidInput (.bcdInputOutOfRange n)))

/-- Rule R88: for every row `t` and column `u` of the 100-entry table the evaluation of the cell's number answers the
labels of its row and column. -/
def Obligations.Bin2BcdEqualsTable : Prop :=
  ∀ (s : State) (t u : Nat), t ≤ 9 → u ≤ 9 → s.inputs.bin2Bcd.b.toNat = 10 * t + u →
    exec .bin2Bcd s = .next { s with outcome := some (.bin2Bcd (BitVec.ofNat 4 t) (BitVec.ofNat 4 u)) }

/-- Rule R86's last corner case: whatever digits an evaluation answers, they are decimal and spell the input, so no two
inputs have the same digits. -/
def Obligations.Bin2BcdDigitsSpellTheInput : Prop :=
  ∀ (s t : State) (tens ones : Word 4), exec .bin2Bcd s = .next t → t.outcome = some (.bin2Bcd tens ones) →
    tens.toNat ≤ 9 ∧ ones.toNat ≤ 9 ∧ 10 * tens.toNat + ones.toNat = s.inputs.bin2Bcd.b.toNat

/-! Errors (60_exceptions.md). -/

/-- Rule R92: which unit raises, and exactly when. A unit whose contract holds completes with outputs of its own; one
whose contract does not hold raises its cause, with the value rule R91 says is recorded. With its 3-bit selector
Mux8way never raises. -/
def Obligations.RaisesExactlyOnContractViolation : Prop :=
  (∀ (i : Instr) (s : State),
    (contractHolds i s → ∃ o : Outputs s.cfg, o.unit = i ∧ exec i s = .next { s with outcome := some o }) ∧
    (¬ contractHolds i s → ∃ c, violationCause i s = some c ∧ exec i s = .fault (.invalidInput c))) ∧
  ∀ s : State, s.cfg.mux8SelW = 3 → contractHolds .mux8way s

/-- Rule R93: the three defined fallbacks complete. -/
def Obligations.DefinedFallbacksAreNotErrors : Prop :=
  ∀ s : State,
    (16 ≤ s.inputs.barrelShifter.size.toNat →
      exec .barrelShifter s = .next { s with outcome := some (.barrelShifter 0x0000#16) }) ∧
    (16 ≤ s.inputs.bin2Hex.bin.toNat % 32 →
      exec .bin2Hex s = .next { s with outcome := some (.bin2Hex 0b0001110#7) }) ∧
    (2 ≤ s.inputs.deMux2way.sel.toNat →
      exec .deMux2way s = .next { s with outcome := some (.deMux2way 0#_ 0#_) }) ∧
    (4 ≤ s.inputs.deMux4way.sel.toNat →
      exec .deMux4way s = .next { s with outcome := some (.deMux4way 0#_ 0#_ 0#_ 0#_) })

/-- Rules R91 and R104: a step that faults raises cause 1 or cause 2 of the unit it evaluates, never `WidthMismatch`
(code 3), and a step that is refused names an unassigned index. -/
def Obligations.StepNeverRaisesWidthMismatch : Prop :=
  ∀ s : State,
    (∀ f, step s = .fault f → ∃ (i : Instr) (c : Cause), decode s.uid = .ok i ∧ f = .invalidInput c ∧
      violationCause i s = some c ∧ (c.code = 1 ∨ c.code = 2)) ∧
    (∀ r, step s = .refused r → r = .unassignedUid s.uid ∧ 12 ≤ s.uid.toNat)

/-! The whole machine. -/

/-- Frame of every unit (rules R38 and R39): an evaluation that completes changes nothing but the recorded outcome, and
what it records are outputs of the unit evaluated. -/
def Obligations.EvaluationChangesOnlyTheOutcome : Prop :=
  ∀ (i : Instr) (s t : State), exec i s = .next t →
    ∃ o : Outputs s.cfg, o.unit = i ∧ t = { s with outcome := some o }

/-- Rule R39: re-evaluating with unchanged inputs changes nothing. -/
def Obligations.EvaluationIsIdempotent : Prop :=
  ∀ (i : Instr) (s t : State), exec i s = .next t → exec i t = .next t

/-- Rule R41, and rules R15 and R33: what the caller sees of an evaluation depends on the parameters and on the unit's
own input values alone, not on the index presented, on another unit's inputs or on an earlier outcome; an evaluation
that completes is not seen by any evaluation after it, so that two may come in either order. -/
def Obligations.NoHistoryInAnyEvaluation : Prop :=
  (∀ (i : Instr) (c : Config) (x y : Inputs c) (u v : Word 4) (p q : Option (Outputs c)), Inputs.agreeOn i x y →
    reportOf (exec i ⟨c, u, x, p⟩) = reportOf (exec i ⟨c, v, y, q⟩)) ∧
  (∀ (i j : Instr) (s t : State), exec i s = .next t → reportOf (exec j t) = reportOf (exec j s))

/-- Every step keeps the invariant: legal parameters (rule R7), lawful outputs (rules R24, R27, R80, R82), and recorded
outputs that are those of the present inputs (rules R107 and R110). -/
def Obligations.StepKeepsInvariant : Prop :=
  ∀ s t : State, s.Inv → step s = .next t → t.Inv

/-- The state before any evaluation meets the invariant. -/
def Obligations.ResetMeetsInvariant : Prop :=
  State.reset.Inv

/-- What the state before any evaluation holds: no outcome; the values of rule R7 and of the table of switches; and, as
the model's choices where the spec gives no value, the OPEN widths (notes/assumptions/3.md), unit index 0
(notes/assumptions/4.md) and every input at zero (notes/assumptions/2.md). -/
def Obligations.ResetHoldsNoOutcomeAndDefaults : Prop :=
  State.reset.outcome = none ∧ State.reset.uid = 0#4 ∧
  State.reset.cfg.and16Mode = .bitwise ∧ State.reset.cfg.muxOorPolicy = .invalid ∧
  State.reset.cfg.muxW = 16 ∧ State.reset.cfg.demuxW = 16 ∧ State.reset.cfg.mux8SelW = 3 ∧ State.reset.cfg.binW = 5 ∧
  State.reset.cfg.sizeW = 4 ∧ State.reset.cfg.mux4SelW = 3 ∧ State.reset.cfg.demux2SelW = 1 ∧
  State.reset.cfg.demux4SelW = 2 ∧
  ∀ (i : Instr) (x : Port × DynWord), x ∈ State.reset.inputs.ports i → x.2.bits.toNat = 0

/-! The caller that discovers widths while it runs (Machine/Harness.lean). -/

/-- A call that gives each input port of its unit exactly one value of the port's width is presented on those ports as
it stands, and its outcome is the evaluation of the unit there. -/
def Obligations.FittingCallIsEvaluated : Prop :=
  ∀ k : Call, k.cfg.legal = true →
    (k.operands.map (fun o => (o.1, o.2.width))).Perm (inPorts k.cfg k.unit) →
    ∃ s : State, k.present = .ok s ∧ s.cfg = k.cfg ∧ s.uid = encode k.unit ∧ s.outcome = none ∧
      (s.inputs.ports k.unit).Perm k.operands ∧ k.evaluate = exec k.unit s

/-- Rule R54: the operands of a call may be given in any order. For a call that fits its unit that is the rule; for one
with several misfits (two wrong widths, say) the outcomes are equal only because the harness reports the first port in
the order of rule R48 whatever the order of the operands, which is the model's choice and nothing R54 says
(DESIGN CHOICE, notes/assumptions/13.md). -/
def Obligations.OperandOrderDoesNotMatter : Prop :=
  ∀ k l : Call, k.unit = l.unit → k.cfg = l.cfg → k.operands.Perm l.operands → k.strayPort = none →
    k.evaluate = l.evaluate

/-- Rules R58 and R104: a call with an operand of another width than its port's is never evaluated; it ends in
`WidthMismatch`, which records the unit, a port whose operand does not fit, and the two widths. -/
def Obligations.WidthMismatchIsNeverEvaluated : Prop :=
  ∀ k : Call, k.cfg.legal = true →
    (k.operands.map (fun o => o.1)).Perm ((inPorts k.cfg k.unit).map (fun x => x.1)) →
    (∃ o ∈ k.operands, ∃ w, (o.1, w) ∈ inPorts k.cfg k.unit ∧ o.2.width ≠ w) →
    (∀ s, k.present ≠ .ok s) ∧
    ∃ p w v, (p, w) ∈ inPorts k.cfg k.unit ∧ (∃ o ∈ k.operands, o.1 = p ∧ o.2.width = v) ∧ v ≠ w ∧
      k.evaluate = .fault (.invalidInput (.widthMismatch k.unit p w v))

/-! Compositions (Machine/Composition.lean). -/

/-- The order the builder answers evaluates each node once, after every node that feeds it (rule R116). -/
def Obligations.ScheduleIsAdmissible : Prop :=
  ∀ (C : Circuit) (order : List Nat), C.build = .ok order → C.admissible order = true

/-- The scheduler (`Circuit.schedule`) finds an order whenever an admissible one exists, and the one it finds is
admissible: it never takes a loop-free composition for one with a loop (rules R112 and R116). -/
def Obligations.LoopFreeCompositionIsScheduled : Prop :=
  ∀ (C : Circuit) (order : List Nat), C.admissible order = true →
    ∃ found, C.schedule = some found ∧ C.admissible found = true

/-- Rule R112: a composition in which a unit's output is connected back, directly or through other units, to one of its
own inputs is refused. -/
def Obligations.CombinationalLoopIsRefused : Prop :=
  ∀ (C : Circuit) (k : Nat), Relation.TransGen C.feeds k k → ∃ e, C.build = .error e ∧ C.evaluate = .error e

/-- Rule R116: the outcome of every node is the same in every admissible order. -/
def Obligations.ResultDoesNotDependOnTheOrder : Prop :=
  ∀ (C : Circuit) (order order' : List Nat), C.admissible order = true → C.admissible order' = true →
    ∀ k : Nat, (C.runFrom [] order).lookup k = (C.runFrom [] order').lookup k

/-- Rule R99: in a composition the builder accepts, every node has an outcome; none is rejected and none raises
`WidthMismatch`; and the nodes not evaluated are exactly those fed by a node that has no outputs. -/
def Obligations.BuiltCompositionIsSound : Prop :=
  ∀ (C : Circuit) (order : List Nat), C.build = .ok order →
    let tr := C.runFrom [] order
    ∀ (k : Nat) (nd : Node), C.nodes[k]? = some nd →
      ∃ oc, tr.lookup k = some oc ∧ (∀ r, oc ≠ .rejected r) ∧ (∀ c, oc = .invalid c → c.code = 1 ∨ c.code = 2) ∧
        (oc = .notEvaluated ↔ ∃ j ∈ nd.feeders, ∀ outs, tr.lookup j ≠ some (.ok outs))

/-- Rule R99: a composition's outcome is `InvalidInput` exactly when some unit in it yields `InvalidInput`, and then it
reports each of those causes with its node and no other: rule R96 permits any or all, and all is the model's choice
(notes/assumptions/14.md). -/
def Obligations.CompositionFaultsIffSomeUnitDoes : Prop :=
  ∀ (C : Circuit) (order : List Nat), C.build = .ok order →
    let tr := C.runFrom [] order
    ((∀ k c, tr.lookup k ≠ some (.invalid c)) → C.evaluate = .ok (.ok tr)) ∧
    ((∃ k c, tr.lookup k = some (.invalid c)) → ∃ causes, C.evaluate = .ok (.invalidInput causes tr) ∧
      ∀ k c, (k, c) ∈ causes ↔ tr.lookup k = some (.invalid c))
end

