-- ==== Sys2Proof/Laws/Composition.lean ====
section
/-! SUPPORT. What running a composition does to its trace, and that a node's outcome depends on the nodes that feed it
alone. -/

namespace Sys2Proof.Machine

theorem runFrom_cons {C : Circuit} {tr : Trace} {k : Nat} {ks : List Nat} {nd : Node} (h : C.nodes[k]? = some nd) :
    C.runFrom tr (k :: ks) = C.runFrom ((k, nd.evaluate C.inputs tr) :: tr) ks := by
  simp only [Circuit.runFrom, h]

theorem ready_iff {C : Circuit} {done : List Nat} {k : Nat} :
    C.ready done k = true ↔ ∃ nd, C.nodes[k]? = some nd ∧ k ∉ done ∧ ∀ j ∈ nd.feeders, j ∈ done := by
  unfold Circuit.ready
  cases h : C.nodes[k]? with
  | none => simp
  | some nd => simp

theorem allDone_iff {C : Circuit} {done : List Nat} :
    C.allDone done = true ↔ ∀ k, k < C.nodes.length → k ∈ done := by
  simp [Circuit.allDone]

/-- A source has the same value in two traces that agree on the nodes it takes its value from. -/
theorem source_value_congr {inputs : List DynWord} {tr tr' : Trace} (s : Source)
    (h : ∀ j ∈ s.feeders, tr.lookup j = tr'.lookup j) : s.value inputs tr = s.value inputs tr' := by
  induction s with
  | const v => rfl
  | input i => rfl
  | net k p => simp only [Source.value, netValue, h k (by simp [Source.feeders])]
  | zext n s ih => simp only [Source.value, ih h]
  | slice hi lo s ih => simp only [Source.value, ih h]

theorem operandValues_congr {inputs : List DynWord} {tr tr' : Trace} (ops : List (Port × Source))
    (h : ∀ o ∈ ops, ∀ j ∈ o.2.feeders, tr.lookup j = tr'.lookup j) :
    operandValues inputs tr ops = operandValues inputs tr' ops := by
  induction ops with
  | nil => rfl
  | cons o rest ih =>
    simp only [operandValues, source_value_congr o.2 (h o (List.mem_cons_self ..)),
      ih (fun o' ho' => h o' (List.mem_cons_of_mem _ ho'))]

/-- A node has the same outcome after two traces that agree on the nodes that feed it. -/
theorem node_evaluate_congr {inputs : List DynWord} {tr tr' : Trace} (nd : Node)
    (h : ∀ j ∈ nd.feeders, tr.lookup j = tr'.lookup j) : nd.evaluate inputs tr = nd.evaluate inputs tr' := by
  unfold Node.evaluate
  rw [operandValues_congr nd.operands
    (fun o ho j hj => h j (List.mem_flatMap.mpr ⟨o, ho, hj⟩))]

/-- Running more nodes leaves the outcome of a node that is not among them. -/
theorem runFrom_lookup_of_not_mem {C : Circuit} {tr : Trace} {ks : List Nat} {k : Nat} (h : k ∉ ks) :
    (C.runFrom tr ks).lookup k = tr.lookup k := by
  induction ks generalizing tr with
  | nil => rfl
  | cons j js ih =>
    rw [List.mem_cons, not_or] at h
    cases hj : C.nodes[j]? with
    | none =>
      have : C.runFrom tr (j :: js) = C.runFrom tr js := by simp only [Circuit.runFrom, hj]
      rw [this, ih h.2]
    | some nd =>
      have hkj : (k == j) = false := by simpa using h.1
      rw [runFrom_cons hj, ih h.2, List.lookup_cons, hkj]

end Sys2Proof.Machine
end

