-- ==== Sys2Proof/Laws/Harness.lean ====
section
/-! SUPPORT. What reading an operand of a call, and presenting a call, can do. -/

namespace Sys2Proof.Machine

/-- An operand is read exactly when the call gives its port one value, of the port's width. -/
theorem operand_ok_iff {k : Call} {p : Port} {w : Nat} {v : Word w} :
    k.operand p w = .ok v ↔ k.operands.filter (fun o => o.1 == p) = [(p, ⟨w, v⟩)] := by
  unfold Call.operand
  split
  case h_1 h => simp [h]
  case h_2 p' u h =>
    have hp : p' = p := by
      have := List.mem_filter.mp (h ▸ List.mem_singleton_self (p', u))
      simpa using this.2
    subst hp
    rw [h]
    obtain ⟨n, b⟩ := u
    by_cases hn : n = w
    · subst hn
      simp
    · simp [hn]
  case h_3 h1 h2 =>
    constructor
    · intro h
      cases h
    · intro h
      exact absurd h (h2 _ _)

/-- A call that is presented is presented with its own parameters and its unit's index, and nothing evaluated yet. -/
theorem present_ok {k : Call} {s : State} (h : k.present = .ok s) :
    k.cfg.legal = true ∧ k.strayPort = none ∧ ∃ x, k.inputs = .ok x ∧ s = ⟨k.cfg, encode k.unit, x, none⟩ := by
  unfold Call.present at h
  split at h
  case isFalse => cases h
  case isTrue hl =>
    split at h
    case h_1 => cases h
    case h_2 hp =>
      split at h
      case h_1 x hx => exact ⟨hl, hp, x, hx, (Except.ok.inj h).symm⟩
      case h_2 => cases h

theorem evaluate_of_present {k : Call} {s : State} (h : k.present = .ok s) : k.evaluate = step s := by
  unfold Call.evaluate
  rw [h]

end Sys2Proof.Machine
end

