-- ==== Sys2Proof/Laws/State.lean ====
section
/-! SUPPORT. The fields of State under its two updates, recording an outcome and asking for a unit, and at reset. -/

namespace Sys2Proof.Machine

@[simp] theorem complete_eq (s : State) (o : Outputs s.cfg) :
    complete s o = .next { s with outcome := some o } := rfl

@[simp] theorem raise_eq (c : Cause) : raise c = .fault (.invalidInput c) := rfl

@[simp] theorem withFetchWord_cfg (s : State) (n w : Nat) : (s.withFetchWord n w).cfg = s.cfg := rfl

@[simp] theorem withFetchWord_uid (s : State) (n w : Nat) : (s.withFetchWord n w).uid = tableWordUid n w := rfl

@[simp] theorem withFetchWord_inputs (s : State) (n w : Nat) : (s.withFetchWord n w).inputs = s.inputs := rfl

@[simp] theorem withFetchWord_outcome (s : State) (n w : Nat) : (s.withFetchWord n w).outcome = s.outcome := rfl

@[simp] theorem reset_cfg : State.reset.cfg = Config.default := rfl

@[simp] theorem reset_uid : State.reset.uid = 0#4 := rfl

@[simp] theorem reset_inputs : State.reset.inputs = Inputs.zero Config.default := rfl

@[simp] theorem reset_outcome : State.reset.outcome = none := rfl

end Sys2Proof.Machine
end

