-- ==== Sys2Proof/Laws/Ops.lean ====
section
/-! SUPPORT. What each shared operation can do, said once. -/

namespace Sys2Proof.Machine

theorem complete_next_iff {s t : State} {o : Outputs s.cfg} :
    complete s o = .next t ↔ t = { s with outcome := some o } := by
  constructor
  · intro h
    exact (Host.Outcome.next.inj h).symm
  · rintro rfl
    rfl

theorem muxSelect_of_lt {n k : Nat} {ws : List (Word n)} (h : k < ws.length) : muxSelect ws k = some ws[k] :=
  List.getElem?_eq_getElem h

theorem muxSelect_of_ge {n k : Nat} {ws : List (Word n)} (h : ws.length ≤ k) : muxSelect ws k = none :=
  List.getElem?_eq_none h

/-- Every case of a multiplexer: the word at the index, or the policy's answer to an index out of range. -/
theorem muxEvaluate_cases (u : Instr) (s : State) (ws : List (Word s.cfg.muxW)) (k : Nat)
    (drive : Word s.cfg.muxW → Outputs s.cfg) :
    (∃ h : k < ws.length, muxEvaluate u s ws k drive = .next { s with outcome := some (drive ws[k]) }) ∨
    (ws.length ≤ k ∧ s.cfg.muxOorPolicy = .zero ∧
      muxEvaluate u s ws k drive = .next { s with outcome := some (drive 0#s.cfg.muxW) }) ∨
    (ws.length ≤ k ∧ s.cfg.muxOorPolicy = .invalid ∧
      muxEvaluate u s ws k drive = .fault (.invalidInput (.selectorOutOfRange u k))) := by
  unfold muxEvaluate
  rcases Nat.lt_or_ge k ws.length with h | h
  · exact .inl ⟨h, by rw [muxSelect_of_lt h]; rfl⟩
  · rw [muxSelect_of_ge h]
    cases hp : s.cfg.muxOorPolicy
    · exact .inr (.inr ⟨h, rfl, rfl⟩)
    · exact .inr (.inl ⟨h, rfl, rfl⟩)

theorem muxEvaluate_of_lt {u : Instr} {s : State} {ws : List (Word s.cfg.muxW)} {k : Nat}
    {drive : Word s.cfg.muxW → Outputs s.cfg} (h : k < ws.length) :
    muxEvaluate u s ws k drive = .next { s with outcome := some (drive ws[k]) } := by
  unfold muxEvaluate
  rw [muxSelect_of_lt h]
  rfl

theorem muxEvaluate_zero {u : Instr} {s : State} {ws : List (Word s.cfg.muxW)} {k : Nat}
    {drive : Word s.cfg.muxW → Outputs s.cfg} (h : ws.length ≤ k) (hp : s.cfg.muxOorPolicy = .zero) :
    muxEvaluate u s ws k drive = .next { s with outcome := some (drive 0#s.cfg.muxW) } := by
  unfold muxEvaluate
  rw [muxSelect_of_ge h, hp]
  rfl

theorem muxEvaluate_invalid {u : Instr} {s : State} {ws : List (Word s.cfg.muxW)} {k : Nat}
    {drive : Word s.cfg.muxW → Outputs s.cfg} (h : ws.length ≤ k) (hp : s.cfg.muxOorPolicy = .invalid) :
    muxEvaluate u s ws k drive = .fault (.invalidInput (.selectorOutOfRange u k)) := by
  unfold muxEvaluate
  rw [muxSelect_of_ge h, hp]
  rfl

@[simp] theorem demuxLane_selected {n : Nat} (a : Word n) (k : Nat) : demuxLane a k k = a := if_pos rfl

theorem demuxLane_other {n k j : Nat} (a : Word n) (h : j ≠ k) : demuxLane a k j = 0#n := if_neg h

@[simp] theorem demuxLane_zero {n : Nat} (k j : Nat) : demuxLane (0#n) k j = 0#n := by
  unfold demuxLane
  split <;> rfl

end Sys2Proof.Machine
end

