-- ==== Sys2Proof/Laws/Step.lean ====
section
/-! SUPPORT. The meaning of each unit in terms of the shared operations, and the two cases of a step. -/

namespace Sys2Proof.Machine

theorem exec_and16 (s : State) :
    exec .and16 s = complete s (.and16 (and16 s.cfg.and16Mode s.inputs.and16.a s.inputs.and16.b)) := rfl

theorem exec_or8Way (s : State) :
    exec .or8Way s = complete s (.or8Way (or8Way s.inputs.or8Way.a s.inputs.or8Way.b s.inputs.or8Way.c
      s.inputs.or8Way.d s.inputs.or8Way.e s.inputs.or8Way.f s.inputs.or8Way.g s.inputs.or8Way.h)) := rfl

theorem exec_orNWay (s : State) : exec .orNWay s = complete s (.orNWay (orNWay s.inputs.orNWay.a)) := rfl

theorem exec_barrelShifter (s : State) :
    exec .barrelShifter s = complete s (.barrelShifter (barrelShift s.inputs.barrelShifter.a
      s.inputs.barrelShifter.dir s.inputs.barrelShifter.size.toNat)) := rfl

theorem exec_mux2way (s : State) :
    exec .mux2way s = muxEvaluate .mux2way s s.inputs.mux2way.data s.inputs.mux2way.sel.toNat .mux2way := rfl

theorem exec_mux4way (s : State) :
    exec .mux4way s = muxEvaluate .mux4way s s.inputs.mux4way.data s.inputs.mux4way.sel.toNat .mux4way := rfl

theorem exec_mux8way (s : State) :
    exec .mux8way s = muxEvaluate .mux8way s s.inputs.mux8way.data s.inputs.mux8way.sel.toNat .mux8way := rfl

theorem exec_bin2Hex (s : State) :
    exec .bin2Hex s = complete s (.bin2Hex (segmentOf (segmentKey s.inputs.bin2Hex.bin))) := rfl

theorem exec_bin2Bcd_of_lt {s : State} (h : s.inputs.bin2Bcd.b.toNat < 100) :
    exec .bin2Bcd s = complete s (.bin2Bcd (tensDigit s.inputs.bin2Bcd.b.toNat) (onesDigit s.inputs.bin2Bcd.b.toNat)) :=
  if_neg (Nat.not_le.mpr h)

theorem exec_bin2Bcd_of_ge {s : State} (h : 100 ≤ s.inputs.bin2Bcd.b.toNat) :
    exec .bin2Bcd s = raise (.bcdInputOutOfRange s.inputs.bin2Bcd.b.toNat) :=
  if_pos h

theorem segmentKey_eq_mod {n : Nat} (bin : Word n) : segmentKey bin = bin.toNat % 32 := by
  simp [segmentKey]

theorem segmentOf_default {k : Nat} (h : 15 ≤ k) : segmentOf k = segmentDefault := by
  simp [segmentOf, segmentTable, h]

/-- A step evaluates a unit, or refuses an unassigned index. -/
theorem step_cases (s : State) :
    (∃ i, decode s.uid = .ok i ∧ step s = exec i s) ∨
      (∃ u, decode s.uid = .error (.unassigned u) ∧ step s = .refused (.unassignedUid u)) := by
  unfold step
  cases h : decode s.uid with
  | ok i => exact .inl ⟨i, rfl, rfl⟩
  | error e =>
    cases e with
    | unassigned u => exact .inr ⟨u, rfl, rfl⟩

end Sys2Proof.Machine
end

