-- ==== Sys2Proof/Tests/Slice0.lean ====
section
/-! SUPPORT. Tests. Expected values come from spec/: the vectors of 95_test_vectors.md (named in each comment), the table
of rule R47, the constraints of rule R7. The last two parts give each statement with hypotheses a state that meets
them, at the boundary values of its clauses. -/

namespace Sys2Proof.Tests

open Sys2Proof Sys2Proof.Machine

/-- A configuration with wider selectors than the default, so that every range has its far side. -/
def wide : Config :=
  { Config.default with sizeW := 8, mux8SelW := 4, demux2SelW := 2, demux4SelW := 3, binW := 8 }

/-- The same with the policy `zero` (rule R73). -/
def wideZero : Config := { wide with muxOorPolicy := .zero }

/-- The default in logical mode (rule R60). -/
def logical : Config := { Config.default with and16Mode := .logical }

/-- A state before any evaluation, with these inputs and unit index 0. -/
def at0 {c : Config} (x : Inputs c) : State := ⟨c, 0#4, x, none⟩

def z (c : Config) : Inputs c := Inputs.zero c

def sAnd (c : Config) (a b : Word 16) : State := at0 { z c with and16 := ⟨a, b⟩ }
def sShift (a : Word 16) (dir : Bit) (n : Nat) : State := at0 { z wide with barrelShifter := ⟨a, dir, BitVec.ofNat _ n⟩ }
def sMux2 (c : Config) (a b k : Nat) : State :=
  at0 { z c with mux2way := ⟨BitVec.ofNat _ a, BitVec.ofNat _ b, BitVec.ofNat _ k⟩ }
def sMux4 (c : Config) (k : Nat) : State :=
  at0 { z c with mux4way :=
    ⟨BitVec.ofNat _ 0x1111, BitVec.ofNat _ 0x2222, BitVec.ofNat _ 0x3333, BitVec.ofNat _ 0x4444, BitVec.ofNat _ k⟩ }
def sMux8 (c : Config) (k : Nat) : State :=
  at0 { z c with mux8way :=
    ⟨BitVec.ofNat _ 1, BitVec.ofNat _ 2, BitVec.ofNat _ 4, BitVec.ofNat _ 8, BitVec.ofNat _ 16, BitVec.ofNat _ 32,
     BitVec.ofNat _ 64, BitVec.ofNat _ 128, BitVec.ofNat _ k⟩ }
def sDmx2 (a k : Nat) : State := at0 { z wide with deMux2way := ⟨BitVec.ofNat _ a, BitVec.ofNat _ k⟩ }
def sDmx4 (a k : Nat) : State := at0 { z wide with deMux4way := ⟨BitVec.ofNat _ a, BitVec.ofNat _ k⟩ }
def sDmx8 (a k : Nat) : State := at0 { z wide with deMux8way := ⟨BitVec.ofNat _ a, BitVec.ofNat _ k⟩ }
def sHex (c : Config) (n : Nat) : State := at0 { z c with bin2Hex := ⟨BitVec.ofNat _ n⟩ }
def sBcd (n : Nat) : State := at0 { z Config.default with bin2Bcd := ⟨BitVec.ofNat _ n⟩ }

/-- The values on the output ports, as numbers. -/
def outs (o : Host.Outcome State Fault Refusal) : Option (List Nat) :=
  match o with
  | .next s => some (s.outputs.map (fun x => x.2.bits.toNat))
  | _ => none

/-- The unit asked for by index `u` in state `s`. -/
def ask (u : Word 4) (s : State) : State := { s with uid := u }

/-! The unit index, bit by bit from rule R47's table. -/

theorem test_decode_and16 : decode 0b0000#4 = .ok .and16 := by decide
theorem test_decode_or8Way : decode 0b0001#4 = .ok .or8Way := by decide
theorem test_decode_orNWay : decode 0b0010#4 = .ok .orNWay := by decide
theorem test_decode_barrelShifter : decode 0b0011#4 = .ok .barrelShifter := by decide
theorem test_decode_mux2way : decode 0b0100#4 = .ok .mux2way := by decide
theorem test_decode_mux4way : decode 0b0101#4 = .ok .mux4way := by decide
theorem test_decode_mux8way : decode 0b0110#4 = .ok .mux8way := by decide
theorem test_decode_deMux2way : decode 0b0111#4 = .ok .deMux2way := by decide
theorem test_decode_deMux4way : decode 0b1000#4 = .ok .deMux4way := by decide
theorem test_decode_deMux8way : decode 0b1001#4 = .ok .deMux8way := by decide
theorem test_decode_bin2Hex : decode 0b1010#4 = .ok .bin2Hex := by decide
theorem test_decode_bin2Bcd : decode 0b1011#4 = .ok .bin2Bcd := by decide
theorem test_decode_unassigned : decode 0b1100#4 = .error (.unassigned 0b1100#4) ∧
    decode 0b1111#4 = .error (.unassigned 0b1111#4) := by decide
theorem test_table_words : decodeTableWord 8 0x3 = some .barrelShifter ∧ decodeTableWord 8 0xB = some .bin2Bcd ∧
    decodeTableWord 8 0xC = none := by decide

/-! WellFormed: a configuration each check refuses (rule R7), and one it accepts. -/

theorem test_legal_default : Config.default.legal = true ∧ wide.legal = true := by decide
theorem test_illegal_sizeW : Config.legal { Config.default with sizeW := 0 } = false := by decide
theorem test_illegal_muxW : Config.legal { Config.default with muxW := 0 } = false := by decide
theorem test_illegal_mux4SelW : Config.legal { Config.default with mux4SelW := 2 } = false := by decide
theorem test_illegal_mux8SelW : Config.legal { Config.default with mux8SelW := 2 } = false := by decide
theorem test_illegal_demuxW : Config.legal { Config.default with demuxW := 0 } = false := by decide
theorem test_illegal_demux2SelW : Config.legal { Config.default with demux2SelW := 0 } = false := by decide
theorem test_illegal_demux4SelW : Config.legal { Config.default with demux4SelW := 1 } = false := by decide
theorem test_illegal_binW : Config.legal { Config.default with binW := 4 } = false := by decide

/-! One evaluation of each unit. -/

/-- V-AND-5; V-AND-4 in logical mode. -/
theorem test_and16 : outs (step (ask 0 (sAnd Config.default 0xF0F0#16 0xFF00#16))) = some [0xF000] := by decide
theorem test_and16_logical : outs (step (ask 0 (sAnd logical 0xAAAA#16 0x5555#16))) = some [1] := by decide
/-- V-OR8-4 and V-OR8-1. -/
theorem test_or8Way : outs (step (ask 1 (at0 { z wide with or8Way := ⟨0, 0, 0, 0, 0, 1, 0, 0⟩ }))) = some [1] := by decide
theorem test_or8Way_zero : outs (step (ask 1 (at0 (z wide)))) = some [0] := by decide
/-- V-ORN-3 and V-ORN-1. -/
theorem test_orNWay : outs (step (ask 2 (at0 { z wide with orNWay := ⟨0x8000#16⟩ }))) = some [1] := by decide
theorem test_orNWay_zero : outs (step (ask 2 (at0 (z wide)))) = some [0] := by decide
/-- V-SHF-13 and V-SHF-15. -/
theorem test_shift_right : outs (step (ask 3 (sShift 0x8001#16 0 1))) = some [0x4000] := by decide
theorem test_shift_left_16 : outs (step (ask 3 (sShift 0xFFFF#16 1 16))) = some [0] := by decide
/-- V-MUX-2 and V-MUX-7. -/
theorem test_mux2way : outs (step (ask 4 (sMux2 Config.default 0x1111 0x2222 1))) = some [0x2222] := by decide
theorem test_mux2way_oor : reportOf (step (ask 4 (sMux2 Config.default 0x1111 0x2222 2))) =
    .invalidInput (.selectorOutOfRange .mux2way 2) := by decide
/-- S1 and V-MUX-10. -/
theorem test_mux4way : outs (step (ask 5 (sMux4 Config.default 2))) = some [0x3333] := by decide
theorem test_mux4way_oor : reportOf (step (ask 5 (sMux4 Config.default 7))) =
    .invalidInput (.selectorOutOfRange .mux4way 7) := by decide
/-- V-MUX-12; a selector built wider (rule R72's last sentence) under the policy `zero` (rule R73). -/
theorem test_mux8way : outs (step (ask 6 (sMux8 Config.default 5))) = some [0x0020] := by decide
theorem test_mux8way_wide_zero : outs (step (ask 6 (sMux8 wideZero 8))) = some [0] := by decide
/-- V-DMX-2 and V-DMX-3. -/
theorem test_deMux2way : outs (step (ask 7 (sDmx2 0xBEEF 1))) = some [0, 0xBEEF] := by decide
theorem test_deMux2way_oor : outs (step (ask 7 (sDmx2 0xBEEF 2))) = some [0, 0] := by decide
/-- S2 and V-DMX-6. -/
theorem test_deMux4way : outs (step (ask 8 (sDmx4 0xFFAA 1))) = some [0, 0xFFAA, 0, 0] := by decide
theorem test_deMux4way_oor : outs (step (ask 8 (sDmx4 0xFFAA 5))) = some [0, 0, 0, 0] := by decide
/-- V-DMX-9 and V-DMX-8. -/
theorem test_deMux8way : outs (step (ask 9 (sDmx8 0x1234 6))) = some [0, 0, 0, 0, 0, 0, 0x1234, 0] := by decide
theorem test_deMux8way_last : outs (step (ask 9 (sDmx8 0x1234 7))) = some [0, 0, 0, 0, 0, 0, 0, 0x1234] := by decide
/-- V-HEX-8 (42 on an 8-bit port reads key 10) and S4 (key 20). -/
theorem test_bin2Hex_wide : outs (step (ask 10 (sHex wide 42))) = some [0b0001000] := by decide
theorem test_bin2Hex_default : outs (step (ask 10 (sHex Config.default 20))) = some [0b0001110] := by decide
/-- S5 and V-BCD-11. -/
theorem test_bin2Bcd : outs (step (ask 11 (sBcd 52))) = some [5, 2] := by decide
theorem test_bin2Bcd_oor : reportOf (step (ask 11 (sBcd 100))) = .invalidInput (.bcdInputOutOfRange 100) := by decide

/-! The harness: one call each of what it refuses (rules R21, R54, R58, R104). -/

def w16 (n : Nat) : DynWord := ⟨16, BitVec.ofNat 16 n⟩

def andCall (ops : List (Port × DynWord)) : Call := ⟨.and16, Config.default, ops⟩

theorem test_call_any_order : outs (andCall [(.b, w16 0xFF00), (.a, w16 0xF0F0)]).evaluate = some [0xF000] := by decide
theorem test_call_undriven : reportOf (andCall [(.a, w16 1)]).evaluate = .refused (.undrivenInput .and16 .b) := by decide
theorem test_call_drivenTwice : reportOf (andCall [(.a, w16 1), (.b, w16 1), (.a, w16 2)]).evaluate =
    .refused (.drivenTwice .and16 .a) := by decide
theorem test_call_unknownPort : reportOf (andCall [(.a, w16 1), (.b, w16 1), (.sel, w16 2)]).evaluate =
    .refused (.unknownPort .and16 .sel) := by decide
theorem test_call_widthMismatch : reportOf (andCall [(.a, w16 1), (.b, ⟨8, 1#8⟩)]).evaluate =
    .invalidInput (.widthMismatch .and16 .b 16 8) := by decide
theorem test_call_illegalConfig : reportOf (Call.mk .orNWay { Config.default with sizeW := 0 } [(.a, w16 1)]).evaluate =
    .refused .illegalConfig := by decide

/-! Compositions: programs P1.a, P1.d of 95_test_vectors.md, and one circuit for each check of the builder. -/

/-- Program P1, its nodes in the order u2, u1, u3. -/
def p1 (b : Nat) : Circuit where
  inputs := [⟨8, BitVec.ofNat 8 b⟩]
  nodes := [⟨.bin2Hex, Config.default, [(.bin, .zext 5 (.net 1 .bcd1))]⟩,
            ⟨.bin2Bcd, Config.default, [(.b, .input 0)]⟩,
            ⟨.bin2Hex, Config.default, [(.bin, .zext 5 (.net 1 .bcd0))]⟩]

/-- The outcome of node `k`, if the composition is accepted. -/
def nodeOutcome (C : Circuit) (k : Nat) : Option NodeOutcome :=
  match C.evaluate with
  | .ok (.ok tr) => tr.lookup k
  | .ok (.invalidInput _ tr) => tr.lookup k
  | .error _ => none

def buildError (C : Circuit) : Option BuildError :=
  match C.build with
  | .ok _ => none
  | .error e => some e

theorem test_p1_order : (p1 52).build.toOption = some [1, 0, 2] := by decide
theorem test_p1_a : nodeOutcome (p1 52) 0 = some (.ok [(.seg, ⟨7, 0b0010010#7⟩)]) ∧
    nodeOutcome (p1 52) 2 = some (.ok [(.seg, ⟨7, 0b0100100#7⟩)]) := by decide
theorem test_p1_d : nodeOutcome (p1 100) 1 = some (.invalid (.bcdInputOutOfRange 100)) ∧
    nodeOutcome (p1 100) 0 = some .notEvaluated := by decide

def one (nd : Node) : Circuit := ⟨[w16 1], [nd]⟩

/-- A node that feeds itself. -/
def selfFed : Circuit := one ⟨.and16, Config.default, [(.a, .input 0), (.b, .net 0 .q)]⟩

theorem test_build_loop : buildError selfFed = some .combinationalLoop := by decide
theorem test_build_undriven : buildError (one ⟨.and16, Config.default, [(.a, .input 0)]⟩) = some (.undriven 0 .b) := by decide
theorem test_build_drivenTwice :
    buildError (one ⟨.orNWay, Config.default, [(.a, .input 0), (.a, .input 0)]⟩) = some (.drivenTwice 0 .a) := by decide
theorem test_build_unknownPort :
    buildError (one ⟨.orNWay, Config.default, [(.a, .input 0), (.dir, .input 0)]⟩) = some (.unknownPort 0 .dir) := by decide
theorem test_build_badSource :
    buildError (one ⟨.orNWay, Config.default, [(.a, .input 1)]⟩) = some (.badSource 0 .a) := by decide
theorem test_build_badSlice :
    buildError (one ⟨.orNWay, Config.default, [(.a, .slice 16 1 (.input 0))]⟩) = some (.badSource 0 .a) := by decide
theorem test_build_width : buildError (one ⟨.bin2Bcd, Config.default, [(.b, .input 0)]⟩) =
    some (.invalid 0 (.widthMismatch .bin2Bcd .b 8 16)) := by decide
theorem test_build_illegalConfig :
    buildError (one ⟨.orNWay, { Config.default with binW := 4 }, [(.a, .input 0)]⟩) = some (.illegalConfig 0) := by decide

/-! Witnesses: a state that meets the hypotheses of each statement, clause by clause. -/

theorem test_witness_StepEvaluatesTheUnitNamed : decode (ask 11 (sBcd 52)).uid = .ok .bin2Bcd := by decide
theorem test_witness_EncodeAndDecodeAgree : decode 0b1011#4 = .ok .bin2Bcd := by decide
theorem test_witness_UnassignedIndexIsRefused : 12 ≤ (ask 12 (sBcd 0)).uid.toNat ∧ 12 ≤ (ask 15 (sBcd 0)).uid.toNat := by
  decide
theorem test_witness_TableWordIsEvaluated : 4 ≤ 4 ∧ 4 ≤ 8 := by decide
theorem test_witness_And16BitwiseResult : (sAnd Config.default 0xFFFF#16 0#16).cfg.and16Mode = .bitwise := by decide
theorem test_witness_And16LogicalResult : (sAnd logical 0xFFFF#16 0#16).cfg.and16Mode = .logical := by decide
theorem test_witness_And16ModesAgreeExactlyWhere :
    (sAnd Config.default 3#16 1#16).cfg.and16Mode = .bitwise ∧ (sAnd logical 3#16 1#16).cfg.and16Mode = .logical ∧
      (sAnd logical 3#16 1#16).inputs.and16 = (sAnd Config.default 3#16 1#16).inputs.and16 := by decide
theorem test_witness_BarrelShifterResult :
    16 ≤ (sShift 1#16 0 16).inputs.barrelShifter.size.toNat ∧
    (sShift 1#16 0 15).inputs.barrelShifter.size.toNat < 16 ∧ (sShift 1#16 0 15).inputs.barrelShifter.dir = 0#1 ∧
    (sShift 1#16 1 15).inputs.barrelShifter.size.toNat < 16 ∧ (sShift 1#16 1 15).inputs.barrelShifter.dir = 1#1 := by
  decide
theorem test_witness_BarrelShifterBitByBit : (sShift 1#16 0 15).inputs.barrelShifter.dir = 0#1 ∧
    (sShift 1#16 1 0).inputs.barrelShifter.dir = 1#1 := by decide
theorem test_witness_BarrelShifterLaws : 15 ≤ 15 ∧ 16 ≤ 16 := by decide
/-- Both modes of And16, for the first clause. -/
theorem test_witness_LogicReductionLaws : (sAnd Config.default 1#16 1#16).cfg.and16Mode = .bitwise ∧
    (sAnd logical 1#16 1#16).cfg.and16Mode = .logical := by decide
theorem test_witness_Mux2wayResult : (sMux2 wide 1 2 0).inputs.mux2way.sel.toNat = 0 ∧
    (sMux2 wide 1 2 1).inputs.mux2way.sel.toNat = 1 ∧
    2 ≤ (sMux2 wide 1 2 2).inputs.mux2way.sel.toNat ∧ (sMux2 wide 1 2 2).cfg.muxOorPolicy = .invalid := by decide
theorem test_witness_Mux4wayResult : (sMux4 wide 0).inputs.mux4way.sel.toNat = 0 ∧
    (sMux4 wide 1).inputs.mux4way.sel.toNat = 1 ∧ (sMux4 wide 2).inputs.mux4way.sel.toNat = 2 ∧
    (sMux4 wide 3).inputs.mux4way.sel.toNat = 3 ∧
    4 ≤ (sMux4 wide 4).inputs.mux4way.sel.toNat ∧ (sMux4 wide 4).cfg.muxOorPolicy = .invalid := by decide
theorem test_witness_MuxOutOfRangePolicies :
    (sMux2 wide 1 2 2).cfg.muxOorPolicy = .invalid ∧ 2 ≤ (sMux2 wide 1 2 2).inputs.mux2way.sel.toNat ∧
    4 ≤ (sMux4 wide 4).inputs.mux4way.sel.toNat ∧
    (sMux2 wideZero 1 2 3).cfg.muxOorPolicy = .zero ∧ 2 ≤ (sMux2 wideZero 1 2 3).inputs.mux2way.sel.toNat ∧
    4 ≤ (sMux4 wideZero 7).inputs.mux4way.sel.toNat := by decide
theorem test_witness_Mux8wayResult :
    ((sMux8 Config.default 7).inputs.mux8way.data.map BitVec.toNat)[(sMux8 Config.default 7).inputs.mux8way.sel.toNat]? =
      some 0x0080 ∧
    (sMux8 Config.default 7).cfg.mux8SelW = 3 ∧
    8 ≤ (sMux8 wide 8).inputs.mux8way.sel.toNat ∧ (sMux8 wide 8).cfg.muxOorPolicy = .invalid ∧
    8 ≤ (sMux8 wideZero 15).inputs.mux8way.sel.toNat ∧ (sMux8 wideZero 15).cfg.muxOorPolicy = .zero := by decide

/-- Every data input of every multiplexer at zero and every selector at 1: it meets every clause of MuxLaws but the
out-of-range ones, which hold of any state. -/
def sMuxes : State :=
  at0 { z wide with mux2way := ⟨0#_, 0#_, 1#2⟩, mux4way := ⟨0#_, 0#_, 0#_, 0#_, 1#_⟩,
                    mux8way := ⟨0#_, 0#_, 0#_, 0#_, 0#_, 0#_, 0#_, 0#_, 1#_⟩ }

theorem test_witness_MuxLaws :
    sMuxes.inputs.mux2way.a = 0#_ ∧ sMuxes.inputs.mux2way.b = 0#_ ∧ sMuxes.inputs.mux2way.sel.toNat < 2 ∧
    sMuxes.inputs.mux4way.a = 0#_ ∧ sMuxes.inputs.mux4way.b = 0#_ ∧ sMuxes.inputs.mux4way.c = 0#_ ∧
    sMuxes.inputs.mux4way.d = 0#_ ∧ sMuxes.inputs.mux4way.sel.toNat < 4 ∧
    sMuxes.inputs.mux8way.a = 0#_ ∧ sMuxes.inputs.mux8way.b = 0#_ ∧ sMuxes.inputs.mux8way.c = 0#_ ∧
    sMuxes.inputs.mux8way.d = 0#_ ∧ sMuxes.inputs.mux8way.e = 0#_ ∧ sMuxes.inputs.mux8way.f = 0#_ ∧
    sMuxes.inputs.mux8way.g = 0#_ ∧ sMuxes.inputs.mux8way.h = 0#_ ∧ sMuxes.inputs.mux8way.sel.toNat < 8 ∧
    sMuxes.cfg.muxOorPolicy = .invalid ∧
    sMuxes.inputs.mux4way.a = sMuxes.inputs.mux2way.a ∧ sMuxes.inputs.mux4way.b = sMuxes.inputs.mux2way.b ∧
    sMuxes.inputs.mux4way.sel.toNat = sMuxes.inputs.mux2way.sel.toNat ∧
    sMuxes.inputs.mux8way.a = sMuxes.inputs.mux4way.a ∧ sMuxes.inputs.mux8way.b = sMuxes.inputs.mux4way.b ∧
    sMuxes.inputs.mux8way.c = sMuxes.inputs.mux4way.c ∧ sMuxes.inputs.mux8way.d = sMuxes.inputs.mux4way.d ∧
    sMuxes.inputs.mux8way.sel.toNat = sMuxes.inputs.mux4way.sel.toNat := by
  refine ⟨rfl, rfl, by decide, rfl, rfl, rfl, rfl, by decide, rfl, rfl, rfl, rfl, rfl, rfl, rfl, rfl, by decide, rfl, ?_⟩
  exact ⟨rfl, rfl, rfl, rfl, rfl, rfl, rfl, rfl⟩
theorem test_witness_DemuxOutOfRangeIsAllZero : 2 ≤ (sDmx2 1 2).inputs.deMux2way.sel.toNat ∧
    4 ≤ (sDmx4 1 4).inputs.deMux4way.sel.toNat := by decide
theorem test_witness_MuxOfDemux_2way :
    exec .deMux2way (sDmx2 7 1) = .next { sDmx2 7 1 with outcome := some (.deMux2way 0#16 7#16) } ∧
    (sMux2 wide 0 7 1).inputs.mux2way.data.map BitVec.toNat = [0#16, 7#16].map BitVec.toNat ∧
    (sDmx2 7 1).inputs.deMux2way.sel.toNat < 2 ∧ (sMux2 wide 0 7 1).inputs.mux2way.sel.toNat < 2 :=
  ⟨rfl, by decide⟩
/-- The 4-way and the 8-way clause: multiplexers fed with the outputs of a demultiplexer routing zero to output 1. -/
theorem test_witness_MuxOfDemux_4way :
    exec .deMux4way (sDmx4 0 1) = .next { sDmx4 0 1 with outcome := some (.deMux4way 0#16 0#16 0#16 0#16) } ∧
    sMuxes.inputs.mux4way.data.map BitVec.toNat = [0#16, 0#16, 0#16, 0#16].map BitVec.toNat ∧
    (sDmx4 0 1).inputs.deMux4way.sel.toNat < 4 ∧ sMuxes.inputs.mux4way.sel.toNat < 4 :=
  ⟨rfl, by decide⟩
theorem test_witness_MuxOfDemux_8way :
    exec .deMux8way (sDmx8 0 7) =
      .next { sDmx8 0 7 with outcome := some (.deMux8way 0#16 0#16 0#16 0#16 0#16 0#16 0#16 0#16) } ∧
    sMuxes.inputs.mux8way.data.map BitVec.toNat =
      [0#16, 0#16, 0#16, 0#16, 0#16, 0#16, 0#16, 0#16].map BitVec.toNat ∧
    sMuxes.inputs.mux8way.sel.toNat < 8 :=
  ⟨rfl, by decide⟩
theorem test_witness_Bin2HexConsultsLowFiveBits : (∀ i : Nat, i < 5 →
    (sHex wide 42).inputs.bin2Hex.bin.getLsbD i = (sHex Config.default 10).inputs.bin2Hex.bin.getLsbD i) ∧
    (sHex Config.default 16).inputs.bin2Hex.bin.getLsbD 4 = true := by decide
theorem test_witness_Bin2BcdResult : (sBcd 99).inputs.bin2Bcd.b.toNat < 100 ∧
    100 ≤ (sBcd 100).inputs.bin2Bcd.b.toNat ∧ 100 ≤ (sBcd 255).inputs.bin2Bcd.b.toNat := by decide
theorem test_witness_Bin2BcdEqualsTable : 9 ≤ 9 ∧ (sBcd 99).inputs.bin2Bcd.b.toNat = 10 * 9 + 9 ∧
    (sBcd 0).inputs.bin2Bcd.b.toNat = 10 * 0 + 0 := by decide

/-- The state after the evaluation of example S5. -/
def bcd52 : State := { ask 11 (sBcd 52) with outcome := some (.bin2Bcd 5#4 2#4) }

theorem test_witness_Bin2BcdDigitsSpellTheInput :
    exec .bin2Bcd (ask 11 (sBcd 52)) = .next bcd52 ∧ bcd52.outcome = some (.bin2Bcd 5#4 2#4) := ⟨rfl, rfl⟩
theorem test_witness_RaisesExactlyOnContractViolation : contractHolds .bin2Bcd (sBcd 99) ∧
    ¬ contractHolds .bin2Bcd (sBcd 100) ∧ ¬ contractHolds .mux2way (sMux2 wide 1 2 2) ∧
    ¬ contractHolds .mux4way (sMux4 wide 4) ∧ ¬ contractHolds .mux8way (sMux8 wide 8) ∧
    (sMux8 Config.default 7).cfg.mux8SelW = 3 := by
  simp only [contractHolds]
  decide
theorem test_witness_DefinedFallbacksAreNotErrors : 16 ≤ (sShift 1#16 0 16).inputs.barrelShifter.size.toNat ∧
    16 ≤ (sHex Config.default 16).inputs.bin2Hex.bin.toNat % 32 ∧ 2 ≤ (sDmx2 1 2).inputs.deMux2way.sel.toNat ∧
    4 ≤ (sDmx4 1 4).inputs.deMux4way.sel.toNat := by decide
theorem test_witness_StepNeverRaisesWidthMismatch :
    step (ask 11 (sBcd 100)) = .fault (.invalidInput (.bcdInputOutOfRange 100)) ∧
    step (ask 12 (sBcd 0)) = .refused (.unassignedUid 12#4) := ⟨rfl, rfl⟩
theorem test_witness_EvaluationChangesOnlyTheOutcome : exec .bin2Bcd (ask 11 (sBcd 52)) = .next bcd52 := rfl
theorem test_witness_EvaluationIsIdempotent : exec .bin2Bcd (ask 11 (sBcd 52)) = .next bcd52 := rfl
theorem test_witness_NoHistoryInAnyEvaluation :
    Inputs.agreeOn .bin2Hex (z wide) { z wide with bin2Bcd := ⟨52#8⟩ } ∧
    exec .bin2Bcd (ask 11 (sBcd 52)) = .next bcd52 := ⟨rfl, rfl⟩
theorem test_witness_StepKeepsInvariant : bcd52.Inv ∧ step bcd52 = .next bcd52 := by
  refine ⟨⟨by decide, fun o h => ?_, fun o h => ?_⟩, rfl⟩
  · obtain rfl := Option.some.inj h
    exact ⟨by decide, by decide⟩
  · obtain rfl := Option.some.inj h
    rfl
theorem test_witness_FittingCallIsEvaluated : Config.default.legal = true ∧
    ((andCall [(.b, w16 1), (.a, w16 2)]).operands.map (fun o => (o.1, o.2.width))).Perm
      (inPorts Config.default .and16) := by decide
theorem test_witness_OperandOrderDoesNotMatter :
    (andCall [(.b, w16 1), (.a, w16 2)]).operands.Perm (andCall [(.a, w16 2), (.b, w16 1)]).operands ∧
    (andCall [(.b, w16 1), (.a, w16 2)]).strayPort = none := by decide
theorem test_witness_WidthMismatchIsNeverEvaluated :
    (andCall [(.a, w16 1), (.b, ⟨8, 1#8⟩)]).cfg.legal = true ∧
    ((andCall [(.a, w16 1), (.b, ⟨8, 1#8⟩)]).operands.map (fun o => o.1)).Perm
      ((inPorts Config.default .and16).map (fun x => x.1)) ∧
    ∃ o ∈ (andCall [(.a, w16 1), (.b, ⟨8, 1#8⟩)]).operands, ∃ w, (o.1, w) ∈ inPorts Config.default .and16 ∧
      o.2.width ≠ w :=
  ⟨by decide, by decide, (.b, ⟨8, 1#8⟩), by decide, 16, by decide, by decide⟩
theorem test_witness_ScheduleIsAdmissible : (p1 52).build = .ok [1, 0, 2] := rfl
theorem test_witness_LoopFreeCompositionIsScheduled : (p1 52).admissible [1, 2, 0] = true := by decide
theorem test_witness_CombinationalLoopIsRefused : Relation.TransGen selfFed.feeds 0 0 :=
  .single ⟨_, rfl, by decide⟩
theorem test_witness_ResultDoesNotDependOnTheOrder : (p1 52).admissible [1, 2, 0] = true ∧
    (p1 52).admissible [1, 0, 2] = true := by decide
theorem test_witness_BuiltCompositionIsSound : (p1 100).build = .ok [1, 0, 2] ∧
    (p1 100).nodes[2]? = some ⟨.bin2Hex, Config.default, [(.bin, .zext 5 (.net 1 .bcd0))]⟩ := ⟨rfl, rfl⟩
theorem test_witness_CompositionFaultsIffSomeUnitDoes : (p1 100).build = .ok [1, 0, 2] ∧
    ((p1 100).runFrom [] [1, 0, 2]).lookup 1 = some (.invalid (.bcdInputOutOfRange 100)) ∧
    (p1 52).build = .ok [1, 0, 2] ∧ causesOf ((p1 52).runFrom [] [1, 0, 2]) = [] := ⟨rfl, rfl, rfl, rfl⟩

end Sys2Proof.Tests
end

/-! PROOFS (00_scope.md). Every evaluation either completes with lawful outputs of its unit or raises its unit's cause;
from that the invariant of O37, with the step and the state before any evaluation. -/

namespace Sys2Proof.Machine

/-! What the units compute, as far as `Outputs.lawful` speaks of it. -/

/-- The form of And16's output follows its mode (10_state.md rule R27). -/
theorem and16_lawful {c : Config} (a b : Word 16) : (Outputs.and16 (cfg := c) (and16 c.and16Mode a b)).lawful := by
  cases h : c.and16Mode with
  | bitwise => exact h
  | logical => exact h

/-- Lanes with different numbers cannot both be selected, whatever the selector reads (43_demux.md rule R80). -/
theorem atMostOneNonzero_demuxLanes {n : Nat} (a : Word n) (k : Nat) {lanes : List Nat} (h : lanes.Nodup) :
    atMostOneNonzero (lanes.map (demuxLane a k)) := by
  have selected : ∀ j ∈ lanes, decide (demuxLane a k j ≠ 0#n) = true → (j == k) = true := by
    intro j _ hj
    by_contra hne
    exact of_decide_eq_true hj (demuxLane_other a (by simpa using hne))
  calc ((lanes.map (demuxLane a k)).filter (fun w => w ≠ 0#n)).length
      = lanes.countP (fun j => demuxLane a k j ≠ 0#n) := by
        rw [← List.countP_eq_length_filter, List.countP_map]; rfl
    _ ≤ lanes.count k := List.countP_mono_left selected
    _ ≤ 1 := List.nodup_iff_count_le_one.mp h k

/-- Every key shows one of the sixteen patterns (44_bin2hex.md rule R82). -/
theorem segmentOf_mem_patterns (k : Nat) : (segmentOf k).toNat ∈ segmentPatterns := by
  have inTable : ∀ j < 15, (segmentOf j).toNat ∈ segmentPatterns := by decide
  rcases Nat.lt_or_ge k 15 with h | h
  · exact inTable k h
  · rw [segmentOf_default h]
    decide

theorem tensDigit_le_nine {n : Nat} (h : n < 100) : (tensDigit n).toNat ≤ 9 := by
  rw [tensDigit, BitVec.toNat_ofNat]
  omega

theorem onesDigit_le_nine (n : Nat) : (onesDigit n).toNat ≤ 9 := by
  rw [onesDigit, BitVec.toNat_ofNat]
  omega

/-! What an evaluation can do. -/

theorem exec_deMux2way (s : State) :
    exec .deMux2way s = complete s (.deMux2way
      (demuxLane s.inputs.deMux2way.a s.inputs.deMux2way.sel.toNat 0)
      (demuxLane s.inputs.deMux2way.a s.inputs.deMux2way.sel.toNat 1)) := rfl

theorem exec_deMux4way (s : State) :
    exec .deMux4way s = complete s (.deMux4way
      (demuxLane s.inputs.deMux4way.a s.inputs.deMux4way.sel.toNat 0)
      (demuxLane s.inputs.deMux4way.a s.inputs.deMux4way.sel.toNat 1)
      (demuxLane s.inputs.deMux4way.a s.inputs.deMux4way.sel.toNat 2)
      (demuxLane s.inputs.deMux4way.a s.inputs.deMux4way.sel.toNat 3)) := rfl

theorem exec_deMux8way (s : State) :
    exec .deMux8way s = complete s (.deMux8way
      (demuxLane s.inputs.deMux8way.a s.inputs.deMux8way.sel.toNat 0)
      (demuxLane s.inputs.deMux8way.a s.inputs.deMux8way.sel.toNat 1)
      (demuxLane s.inputs.deMux8way.a s.inputs.deMux8way.sel.toNat 2)
      (demuxLane s.inputs.deMux8way.a s.inputs.deMux8way.sel.toNat 3)
      (demuxLane s.inputs.deMux8way.a s.inputs.deMux8way.sel.toNat 4)
      (demuxLane s.inputs.deMux8way.a s.inputs.deMux8way.sel.toNat 5)
      (demuxLane s.inputs.deMux8way.a s.inputs.deMux8way.sel.toNat 6)
      (demuxLane s.inputs.deMux8way.a s.inputs.deMux8way.sel.toNat 7)) := rfl

/-- The outcome `r` is a completion of unit `i` at `s`: it records lawful outputs of that unit and changes nothing
else. -/
def CompletesWith (i : Instr) (s : State) (r : Host.Outcome State Fault Refusal) : Prop :=
  ∃ o : Outputs s.cfg, o.unit = i ∧ o.lawful ∧ r = .next { s with outcome := some o }

/-- The outcome `r` of unit `i` at `s` is the one its caller contract fixes: a completion where the contract holds, and
the unit's own cause where it does not (60_exceptions.md rules R91 and R92). -/
def FollowsContract (i : Instr) (s : State) (r : Host.Outcome State Fault Refusal) : Prop :=
  (contractHolds i s ∧ CompletesWith i s r) ∨
  (¬ contractHolds i s ∧ ∃ c, violationCause i s = some c ∧ r = .fault (.invalidInput c))

theorem followsContract_of_complete {i : Instr} {s : State} {o : Outputs s.cfg} (hexec : exec i s = complete s o)
    (hcontract : contractHolds i s) (hunit : o.unit = i) (hlawful : o.lawful) : FollowsContract i s (exec i s) :=
  .inl ⟨hcontract, o, hunit, hlawful, hexec⟩

/-- A multiplexer completes exactly when its selector is in range or its policy is `zero` (42_mux.md rule R73). -/
theorem followsContract_of_muxEvaluate {i : Instr} {s : State} {ws : List (Word s.cfg.muxW)} {k : Nat}
    {drive : Word s.cfg.muxW → Outputs s.cfg} (hexec : exec i s = muxEvaluate i s ws k drive)
    (hcontract : contractHolds i s ↔ s.cfg.muxOorPolicy = .zero ∨ k < ws.length)
    (hcause : violationCause i s = some (.selectorOutOfRange i k))
    (hunit : ∀ q, (drive q).unit = i) (hlawful : ∀ q, (drive q).lawful) : FollowsContract i s (exec i s) := by
  rw [hexec, FollowsContract, hcontract]
  rcases muxEvaluate_cases i s ws k drive with ⟨hk, hr⟩ | ⟨_, hp, hr⟩ | ⟨hk, hp, hr⟩
  · exact .inl ⟨.inr hk, _, hunit _, hlawful _, hr⟩
  · exact .inl ⟨.inl hp, _, hunit _, hlawful _, hr⟩
  · have hviolated : ¬ (s.cfg.muxOorPolicy = .zero ∨ k < ws.length) := by simp [hp, hk]
    exact .inr ⟨hviolated, _, hcause, hr⟩

/-- Every case of an evaluation, unit by unit. -/
theorem exec_followsContract (i : Instr) (s : State) : FollowsContract i s (exec i s) := by
  cases i with
  | and16 => exact followsContract_of_complete (exec_and16 s) trivial rfl (and16_lawful _ _)
  | or8Way => exact followsContract_of_complete (exec_or8Way s) trivial rfl trivial
  | orNWay => exact followsContract_of_complete (exec_orNWay s) trivial rfl trivial
  | barrelShifter => exact followsContract_of_complete (exec_barrelShifter s) trivial rfl trivial
  | mux2way => exact followsContract_of_muxEvaluate (exec_mux2way s) .rfl rfl (fun _ => rfl) (fun _ => trivial)
  | mux4way => exact followsContract_of_muxEvaluate (exec_mux4way s) .rfl rfl (fun _ => rfl) (fun _ => trivial)
  | mux8way => exact followsContract_of_muxEvaluate (exec_mux8way s) .rfl rfl (fun _ => rfl) (fun _ => trivial)
  | deMux2way =>
    exact followsContract_of_complete (exec_deMux2way s) trivial rfl
      (atMostOneNonzero_demuxLanes _ _ (lanes := [0, 1]) (by decide))
  | deMux4way =>
    exact followsContract_of_complete (exec_deMux4way s) trivial rfl
      (atMostOneNonzero_demuxLanes _ _ (lanes := [0, 1, 2, 3]) (by decide))
  | deMux8way =>
    exact followsContract_of_complete (exec_deMux8way s) trivial rfl
      (atMostOneNonzero_demuxLanes _ _ (lanes := [0, 1, 2, 3, 4, 5, 6, 7]) (by decide))
  | bin2Hex => exact followsContract_of_complete (exec_bin2Hex s) trivial rfl (segmentOf_mem_patterns _)
  | bin2Bcd =>
    rcases Nat.lt_or_ge s.inputs.bin2Bcd.b.toNat 100 with h | h
    · exact followsContract_of_complete (exec_bin2Bcd_of_lt h) h rfl ⟨tensDigit_le_nine h, onesDigit_le_nine _⟩
    · exact .inr ⟨Nat.not_lt.mpr h, _, rfl, exec_bin2Bcd_of_ge h⟩

theorem completesWith_of_exec_next {i : Instr} {s t : State} (h : exec i s = .next t) :
    CompletesWith i s (.next t) := by
  rcases exec_followsContract i s with ⟨_, hcomplete⟩ | ⟨_, c, _, hfault⟩
  · rwa [h] at hcomplete
  · rw [h] at hfault
    cases hfault

theorem muxEvaluate_setOutcome (u : Instr) (s : State) (p : Option (Outputs s.cfg)) (ws : List (Word s.cfg.muxW))
    (k : Nat) (drive : Word s.cfg.muxW → Outputs s.cfg) :
    muxEvaluate u { s with outcome := p } ws k drive = muxEvaluate u s ws k drive := by
  dsimp only [muxEvaluate]
  cases muxSelect ws k <|> outOfRangeWord s.cfg.muxOorPolicy s.cfg.muxW with
  | some q => rfl
  | none => rfl

/-- No meaning reads the recorded outcome (10_state.md rule R33). -/
theorem exec_setOutcome (i : Instr) (s : State) (p : Option (Outputs s.cfg)) :
    exec i { s with outcome := p } = exec i s := by
  cases i with
  | mux2way => exact muxEvaluate_setOutcome .mux2way s p s.inputs.mux2way.data s.inputs.mux2way.sel.toNat .mux2way
  | mux4way => exact muxEvaluate_setOutcome .mux4way s p s.inputs.mux4way.data s.inputs.mux4way.sel.toNat .mux4way
  | mux8way => exact muxEvaluate_setOutcome .mux8way s p s.inputs.mux8way.data s.inputs.mux8way.sel.toNat .mux8way
  | and16 | or8Way | orNWay | barrelShifter | deMux2way | deMux4way | deMux8way | bin2Hex | bin2Bcd => rfl

/-- Evaluating a unit again changes nothing (20_memory.md rule R39). -/
theorem exec_idempotent {i : Instr} {s t : State} (h : exec i s = .next t) : exec i t = .next t := by
  obtain ⟨o, _, _, ht⟩ := completesWith_of_exec_next h
  obtain rfl := Host.Outcome.next.inj ht
  rw [exec_setOutcome, h]

/-! What a step can do. -/

theorem step_of_decode_ok {s : State} {i : Instr} (h : decode s.uid = .ok i) : step s = exec i s := by
  unfold step
  rw [h]

theorem exec_of_step_next {s t : State} (h : step s = .next t) : ∃ i, exec i s = .next t := by
  rcases step_cases s with ⟨i, _, hexec⟩ | ⟨u, _, hrefused⟩
  · exact ⟨i, hexec ▸ h⟩
  · rw [h] at hrefused
    cases hrefused

/-! The invariant. -/

theorem inv_of_no_outcome {s : State} (hlegal : s.cfg.legal = true) (hnone : s.outcome = none) : s.Inv where
  legal := hlegal
  lawful o ho := by rw [hnone] at ho; cases ho
  settled o ho := by rw [hnone] at ho; cases ho

/-- A completed evaluation makes the invariant true of any state with legal parameters, whatever was recorded before:
what it records is lawful, and no later evaluation of the same inputs differs from it. -/
theorem inv_of_exec_next {i : Instr} {s t : State} (hlegal : s.cfg.legal = true) (h : exec i s = .next t) : t.Inv := by
  have again : exec i t = .next t := exec_idempotent h
  obtain ⟨o, hunit, hlawful, ht⟩ := completesWith_of_exec_next h
  obtain rfl := Host.Outcome.next.inj ht
  refine ⟨hlegal, fun o' ho' => ?_, fun o' ho' => ?_⟩
  · obtain rfl := Option.some.inj ho'
    exact hlawful
  · obtain rfl := Option.some.inj ho'
    rwa [hunit]

/-! The state before any evaluation. -/

/-- With every input at zero, the ports of a unit are those of its signature (30_encoding.md rule R48), each carrying
the zero word. -/
theorem ports_zero (c : Config) (i : Instr) :
    (Inputs.zero c).ports i = (inPorts c i).map fun p => (p.1, ⟨p.2, 0#p.2⟩) := by
  cases i <;> rfl

theorem toNat_of_mem_ports_zero {c : Config} {i : Instr} {x : Port × DynWord} (h : x ∈ (Inputs.zero c).ports i) :
    x.2.bits.toNat = 0 := by
  rw [ports_zero] at h
  obtain ⟨p, _, rfl⟩ := List.mem_map.mp h
  exact BitVec.toNat_zero

/-! The obligations. -/

/-- Settles O3: the other case of the step, a refused index, does not arise. -/
theorem stepEvaluatesTheUnitNamed : Obligations.StepEvaluatesTheUnitNamed :=
  fun _ _ => step_of_decode_ok

/-- Settles O38: the default parameters are legal, and with no outcome recorded the rest asks nothing. -/
theorem resetMeetsInvariant : Obligations.ResetMeetsInvariant :=
  inv_of_no_outcome (by decide) reset_outcome

/-- Settles O39: the fields are read off, and the zero inputs are zero on every port of every signature. -/
theorem resetHoldsNoOutcomeAndDefaults : Obligations.ResetHoldsNoOutcomeAndDefaults :=
  ⟨reset_outcome, reset_uid, rfl, rfl, rfl, rfl, rfl, rfl, rfl, rfl, rfl, rfl, fun _ _ => toNat_of_mem_ports_zero⟩

/-- Settles O37: the step is an evaluation, and an evaluation establishes the invariant from legal parameters alone. -/
theorem stepKeepsInvariant : Obligations.StepKeepsInvariant := by
  intro s t hinv hstep
  obtain ⟨i, hexec⟩ := exec_of_step_next hstep
  exact inv_of_exec_next hinv.legal hexec

end Sys2Proof.Machine

/-! PROOFS (10_state.md). The digits Bin2Bcd answers are the decimal digits of its input. A call that fits its unit
drives each input port with exactly one of its operands, so what is read from the ports is the operands again. -/

namespace Sys2Proof.Machine

/-! The digits of a number below 100 (45_bin2bcd.md rule R86). -/

theorem toNat_tensDigit {n : Nat} (h : n < 100) : (tensDigit n).toNat = n / 10 := by
  rw [tensDigit, BitVec.toNat_ofNat]
  omega

theorem toNat_onesDigit (n : Nat) : (onesDigit n).toNat = n % 10 := by
  rw [onesDigit, BitVec.toNat_ofNat]
  omega

/-- Bin2Bcd completes only below 100, and then with the two digits. -/
theorem exec_bin2Bcd_next {s t : State} (h : exec .bin2Bcd s = .next t) :
    s.inputs.bin2Bcd.b.toNat < 100 ∧ t = { s with outcome := some (.bin2Bcd
      (tensDigit s.inputs.bin2Bcd.b.toNat) (onesDigit s.inputs.bin2Bcd.b.toNat)) } := by
  rcases Nat.lt_or_ge s.inputs.bin2Bcd.b.toNat 100 with hlt | hge
  · rw [exec_bin2Bcd_of_lt hlt, complete_next_iff] at h
    exact ⟨hlt, h⟩
  · rw [exec_bin2Bcd_of_ge hge] at h
    cases h

/-! The ports of a unit and its index. -/

theorem decode_encode (i : Instr) : decode (encode i) = .ok i := by
  cases i <;> rfl

/-- No signature of rule R48 names a port twice. -/
theorem inPorts_names_nodup (c : Config) (i : Instr) : ((inPorts c i).map Prod.fst).Nodup := by
  cases i <;> simp [inPorts]

theorem ports_signature {c : Config} (x : Inputs c) (i : Instr) :
    (x.ports i).map (fun y => (y.1, y.2.width)) = inPorts c i := by
  cases i <;> rfl

theorem ports_nodup {c : Config} (x : Inputs c) (i : Instr) : (x.ports i).Nodup :=
  .of_map _ (ports_signature x i ▸ (inPorts_names_nodup c i).of_map)

/-! Reading the operands of a call (30_encoding.md rule R54). -/

/-- Where no port is named twice, every operand is read as it was given. -/
theorem operand_of_mem {k : Call} (hnames : (k.operands.map Prod.fst).Nodup) {o : Port × DynWord}
    (ho : o ∈ k.operands) : k.operand o.1 o.2.width = .ok o.2.bits := by
  have hmem : o ∈ k.operands.filter (fun x => x.1 == o.1) := List.mem_filter.mpr ⟨ho, beq_self_eq_true _⟩
  have hlength : (k.operands.filter (fun x => x.1 == o.1)).length = 1 := by
    calc (k.operands.filter (fun x => x.1 == o.1)).length
        = (k.operands.map Prod.fst).count o.1 := by
          rw [← List.countP_eq_length_filter, List.count, List.countP_map]; rfl
      _ = 1 := List.count_eq_one_of_mem hnames (List.mem_map_of_mem ho)
  obtain ⟨x, hx⟩ := List.length_eq_one_iff.mp hlength
  obtain rfl : o = x := by simpa [hx] using hmem
  exact operand_ok_iff.mpr hx

theorem mem_operands_of_operand_ok {k : Call} {p : Port} {w : Nat} {v : Word w} (h : k.operand p w = .ok v) :
    (p, ⟨w, v⟩) ∈ k.operands :=
  List.mem_of_mem_filter (operand_ok_iff.mp h ▸ List.mem_singleton_self _)

/-- When every input port of the unit can be read, the ports of the unit carry what was read on them, in the order of
rule R48. -/
theorem inputs_of_operands {k : Call} {val : Port → (w : Nat) → Word w}
    (hread : ∀ p ∈ inPorts k.cfg k.unit, k.operand p.1 p.2 = .ok (val p.1 p.2)) :
    ∃ x, k.inputs = .ok x ∧
      x.ports k.unit = (inPorts k.cfg k.unit).map fun p => (p.1, ⟨p.2, val p.1 p.2⟩) := by
  obtain ⟨i, c, ops⟩ := k
  cases i
  all_goals
    simp only [inPorts, List.forall_mem_cons] at hread
    simp only [Call.inputs, hread]
    exact ⟨_, rfl, rfl⟩

/-! A call that fits its unit. -/

/-- The call gives each input port of its unit exactly one value, of the port's width. -/
def Call.Fits (k : Call) : Prop :=
  (k.operands.map (fun o => (o.1, o.2.width))).Perm (inPorts k.cfg k.unit)

theorem Call.Fits.names_perm {k : Call} (h : k.Fits) :
    (k.operands.map Prod.fst).Perm ((inPorts k.cfg k.unit).map Prod.fst) := by
  have := List.Perm.map Prod.fst h
  rwa [List.map_map] at this

theorem Call.Fits.names_nodup {k : Call} (h : k.Fits) : (k.operands.map Prod.fst).Nodup :=
  h.names_perm.nodup_iff.mpr (inPorts_names_nodup _ _)

theorem Call.Fits.strayPort_eq_none {k : Call} (h : k.Fits) : k.strayPort = none := by
  refine List.find?_eq_none.mpr fun p hp => ?_
  have hport : p ∈ (inPorts k.cfg k.unit).map Prod.fst := h.names_perm.mem_iff.mp hp
  simpa using hport

/-- Every input port of the unit has a value. -/
theorem Call.Fits.exists_operand {k : Call} (h : k.Fits) (p : Port) (w : Nat) (hp : (p, w) ∈ inPorts k.cfg k.unit) :
    ∃ v : Word w, k.operand p w = .ok v := by
  obtain ⟨o, ho, heq⟩ := List.mem_map.mp (h.mem_iff.mpr hp)
  obtain ⟨rfl, rfl⟩ := Prod.mk.inj heq
  exact ⟨_, operand_of_mem h.names_nodup ho⟩

/-- What stands on the ports are the operands: the ports carry distinct operands, and as many as there are. -/
theorem Call.Fits.inputs_ok {k : Call} (h : k.Fits) :
    ∃ x, k.inputs = .ok x ∧ (x.ports k.unit).Perm k.operands := by
  choose! val hval using h.exists_operand
  obtain ⟨x, hx, hports⟩ := inputs_of_operands (fun p hp => hval p.1 p.2 hp)
  refine ⟨x, hx, ?_⟩
  have hsub : x.ports k.unit ⊆ k.operands := by
    intro y hy
    obtain ⟨p, hp, rfl⟩ := List.mem_map.mp (hports ▸ hy)
    exact mem_operands_of_operand_ok (hval p.1 p.2 hp)
  have hlength : k.operands.length ≤ (x.ports k.unit).length := by
    simpa [← ports_signature x] using h.length_eq.le
  exact ((ports_nodup x k.unit).subperm hsub).perm_of_length_le hlength

theorem present_of_inputs {k : Call} {x : Inputs k.cfg} (hlegal : k.cfg.legal = true) (hstray : k.strayPort = none)
    (hx : k.inputs = .ok x) : k.present = .ok ⟨k.cfg, encode k.unit, x, none⟩ := by
  simp [Call.present, hlegal, hstray, hx]

/-- A call that is presented evaluates its own unit. -/
theorem evaluate_of_present_exec {k : Call} {s : State} (h : k.present = .ok s) : k.evaluate = exec k.unit s := by
  obtain ⟨_, _, x, _, rfl⟩ := present_ok h
  rw [evaluate_of_present h, step_of_decode_ok (decode_encode k.unit)]

/-! The obligations. -/

/-- Settles O30: below 100 quotient and remainder by ten are decimal and spell the number, and no evaluation completes
from 100 up. -/
theorem bin2BcdDigitsSpellTheInput : Obligations.Bin2BcdDigitsSpellTheInput := by
  intro s t tens ones hexec hdigits
  obtain ⟨hlt, rfl⟩ := exec_bin2Bcd_next hexec
  obtain ⟨rfl, rfl⟩ := Outputs.bin2Bcd.inj (Option.some.inj hdigits)
  refine ⟨tensDigit_le_nine hlt, onesDigit_le_nine _, ?_⟩
  rw [toNat_tensDigit hlt, toNat_onesDigit, Nat.div_add_mod]

/-- Settles O40: a fitting call passes each check of the harness, and the state it is presented in names its unit. -/
theorem fittingCallIsEvaluated : Obligations.FittingCallIsEvaluated := by
  intro k hlegal (hfits : k.Fits)
  obtain ⟨x, hx, hperm⟩ := hfits.inputs_ok
  have hpresent := present_of_inputs hlegal hfits.strayPort_eq_none hx
  exact ⟨_, hpresent, rfl, rfl, rfl, hperm, evaluate_of_present_exec hpresent⟩

end Sys2Proof.Machine

/-! PROOFS (20_memory.md). The caller sees of a completed evaluation only what it drives, and of a multiplexer only the
word chosen or the cause; neither names the unit index, another unit's inputs or the recorded outcome. -/

namespace Sys2Proof.Machine

/-! What the caller sees of each way an evaluation ends. -/

@[simp] theorem reportOf_complete (s : State) (o : Outputs s.cfg) : reportOf (complete s o) = .ok o.unit o.ports := rfl

@[simp] theorem reportOf_raise (c : Cause) : reportOf (raise c) = .invalidInput c := rfl

/-- Of the state, a multiplexer's report takes the parameters alone. -/
theorem reportOf_muxEvaluate (u : Instr) (s : State) (ws : List (Word s.cfg.muxW)) (k : Nat)
    (drive : Word s.cfg.muxW → Outputs s.cfg) :
    reportOf (muxEvaluate u s ws k drive) =
      (muxSelect ws k <|> outOfRangeWord s.cfg.muxOorPolicy s.cfg.muxW).elim
        (.invalidInput (.selectorOutOfRange u k)) (fun q => .ok (drive q).unit (drive q).ports) := by
  unfold muxEvaluate
  cases muxSelect ws k <|> outOfRangeWord s.cfg.muxOorPolicy s.cfg.muxW with
  | some q => rfl
  | none => rfl

/-! What an evaluation reads and what it changes. -/

/-- The report of a unit is a function of the parameters and of its own input ports (20_memory.md rule R41). -/
theorem reportOf_exec_congr {i : Instr} {c : Config} {x y : Inputs c} (u v : Word 4) (p q : Option (Outputs c))
    (h : Inputs.agreeOn i x y) : reportOf (exec i ⟨c, u, x, p⟩) = reportOf (exec i ⟨c, v, y, q⟩) := by
  cases i <;> dsimp only [Inputs.agreeOn] at h
  case and16 | or8Way | orNWay | barrelShifter | deMux2way | deMux4way | deMux8way | bin2Hex =>
    simp only [exec_and16, exec_or8Way, exec_orNWay, exec_barrelShifter, exec_deMux2way, exec_deMux4way,
      exec_deMux8way, exec_bin2Hex, reportOf_complete, h]
  case mux2way | mux4way | mux8way =>
    simp only [exec_mux2way, exec_mux4way, exec_mux8way, reportOf_muxEvaluate, h]
  case bin2Bcd =>
    rcases Nat.lt_or_ge y.bin2Bcd.b.toNat 100 with hy | hy
    · have hx : x.bin2Bcd.b.toNat < 100 := h ▸ hy
      rw [exec_bin2Bcd_of_lt hx, exec_bin2Bcd_of_lt hy]
      simp only [reportOf_complete, h]
    · have hx : 100 ≤ x.bin2Bcd.b.toNat := h ▸ hy
      rw [exec_bin2Bcd_of_ge hx, exec_bin2Bcd_of_ge hy, h]

/-- A completed evaluation replaces the recorded outcome by outputs of its unit and changes nothing else (20_memory.md
rules R38 and R39). -/
theorem exec_frame {i : Instr} {s t : State} (h : exec i s = .next t) :
    ∃ o : Outputs s.cfg, o.unit = i ∧ t = { s with outcome := some o } := by
  obtain ⟨o, hunit, _, ht⟩ := completesWith_of_exec_next h
  exact ⟨o, hunit, Host.Outcome.next.inj ht⟩

/-! The obligations. -/

/-- Settles O34: every completion records the unit's own outputs. -/
theorem evaluationChangesOnlyTheOutcome : Obligations.EvaluationChangesOnlyTheOutcome :=
  fun _ _ _ => exec_frame

/-- Settles O35: only the recorded outcome has changed, and no unit reads it. -/
theorem evaluationIsIdempotent : Obligations.EvaluationIsIdempotent :=
  fun _ _ _ => exec_idempotent

/-- Settles O36: the report is a function of the unit's own inputs, and what another evaluation changes, the recorded
outcome, no unit reads. -/
theorem noHistoryInAnyEvaluation : Obligations.NoHistoryInAnyEvaluation := by
  refine ⟨fun i c x y u v p q => reportOf_exec_congr u v p q, fun i j s t h => ?_⟩
  obtain ⟨o, _, rfl⟩ := exec_frame h
  rw [exec_setOutcome]

end Sys2Proof.Machine

/-! PROOFS (30_encoding.md). The unit index and its table word; and the calls of the harness: what is read from an
input port depends on the values given to it and not on their place, and a port that cannot be read ends the call. -/

namespace Sys2Proof.Machine

/-! The unit index (rules R47 and R57). -/

/-- Rule R47's table, row by row: a unit and its index determine each other. -/
theorem uidRoundTrip : ∀ i : Instr, Laws.UidRoundTrip.Statement i
  | .and16 => Laws.UidRoundTrip.and16
  | .or8Way => Laws.UidRoundTrip.or8Way
  | .orNWay => Laws.UidRoundTrip.orNWay
  | .barrelShifter => Laws.UidRoundTrip.barrelShifter
  | .mux2way => Laws.UidRoundTrip.mux2way
  | .mux4way => Laws.UidRoundTrip.mux4way
  | .mux8way => Laws.UidRoundTrip.mux8way
  | .deMux2way => Laws.UidRoundTrip.deMux2way
  | .deMux4way => Laws.UidRoundTrip.deMux4way
  | .deMux8way => Laws.UidRoundTrip.deMux8way
  | .bin2Hex => Laws.UidRoundTrip.bin2Hex
  | .bin2Bcd => Laws.UidRoundTrip.bin2Bcd

theorem encode_of_decode_ok {u : Word 4} {i : Instr} (h : decode u = .ok i) : encode i = u :=
  ((uidRoundTrip i).2 u h).symm

theorem decode_unassigned {u : Word 4} (h : 12 ≤ u.toNat) : decode u = .error (.unassigned u) := by
  unfold decode
  split
  case h_13 => rfl
  all_goals omega

theorem step_unassigned {s : State} (h : 12 ≤ s.uid.toNat) : step s = .refused (.unassignedUid s.uid) := by
  unfold step
  rw [decode_unassigned h]

/-- A unit's row of the table is its index with its signature. -/
theorem unitRow_encode (i : Instr) {ins outs : Config → List (Port × Nat)} (hins : ∀ c, inPorts c i = ins c)
    (houts : ∀ c, outPorts c i = outs c) : unitRow (encode i) i ins outs :=
  ⟨decode_encode i, rfl, fun c => ⟨hins c, houts c⟩⟩

/-- And16 has a 1-bit output in logical mode (rules R48 and R60). -/
theorem outPorts_and16 (c : Config) : outPorts c .and16 = [(.q, if c.and16Mode = .logical then 1 else 16)] := by
  unfold outPorts and16OutWidth
  cases c.and16Mode with
  | bitwise => rfl
  | logical => rfl

/-- Of a table word of at least four bits, only the low four bits count (rule R57). -/
theorem tableWordUid_eq {nbits : Nat} (h : 4 ≤ nbits) (w : Nat) : tableWordUid nbits w = BitVec.ofNat 4 w := by
  have hdvd : 2 ^ 4 ∣ 2 ^ nbits := Nat.pow_dvd_pow 2 h
  apply BitVec.eq_of_toNat_eq
  simp only [tableWordUid, BitVec.toNat_ofNat, Nat.mod_mod_of_dvd _ hdvd]

theorem tableWordUid_add_high {nbits : Nat} (h : 4 ≤ nbits) (u : Word 4) (high : Nat) :
    tableWordUid nbits (u.toNat + 16 * high) = u := by
  rw [tableWordUid_eq h]
  bv_omega

/-! A port's value in a call (rules R54 and R58). -/

theorem strayPort_eq_none_iff {k : Call} :
    k.strayPort = none ↔ ∀ o ∈ k.operands, o.1 ∈ (inPorts k.cfg k.unit).map Prod.fst := by
  rw [Call.strayPort, List.find?_eq_none, List.forall_mem_map]
  simp only [Bool.not_eq_true', Bool.not_eq_false, List.contains_iff_mem]

/-- What is read from a port does not depend on the order of the operands: no value, one and several are told apart by
their number, and one value is the same in every order. -/
theorem operand_perm (i : Instr) (c : Config) {ops ops' : List (Port × DynWord)} (h : ops.Perm ops') (p : Port)
    (w : Nat) : (Call.mk i c ops).operand p w = (Call.mk i c ops').operand p w := by
  unfold Call.operand
  dsimp only
  generalize hxs : ops.filter (fun o => o.1 == p) = xs
  generalize hys : ops'.filter (fun o => o.1 == p) = ys
  have hperm : xs.Perm ys := hxs ▸ hys ▸ h.filter _
  match xs, ys, hperm.length_eq with
  | [], [], _ => rfl
  | [x], [y], _ =>
    obtain rfl : x = y := by simpa using hperm
    rfl
  | _ :: _ :: _, _ :: _ :: _, _ => rfl

theorem inputs_perm (i : Instr) (c : Config) {ops ops' : List (Port × DynWord)} (h : ops.Perm ops') :
    (Call.mk i c ops).inputs = (Call.mk i c ops').inputs := by
  cases i <;> simp only [Call.inputs, operand_perm _ c h]

/-- Where no port is named twice, an operand of another width than its port's is a width mismatch. -/
theorem operand_of_mem_of_width_ne {k : Call} (hnames : (k.operands.map Prod.fst).Nodup) {o : Port × DynWord}
    (ho : o ∈ k.operands) {w : Nat} (hw : o.2.width ≠ w) :
    k.operand o.1 w = .error (.cause (.widthMismatch k.unit o.1 w o.2.width)) := by
  have hfilter := operand_ok_iff.mp (operand_of_mem hnames ho)
  unfold Call.operand
  rw [hfilter]
  exact dif_neg hw

/-! Reading the ports of a unit one after another (rule R48). -/

/-- The computation `r` reads the ports `ps` of call `k` in turn and answers when all of them have been read. -/
inductive Call.Reads (k : Call) {α : Type} : List (Port × Nat) → Except BadCall α → Prop
  | done (x : α) : k.Reads [] (.ok x)
  | read {p : Port} {w : Nat} {ps : List (Port × Nat)} {f : Word w → Except BadCall α}
      (h : ∀ v, k.Reads ps (f v)) : k.Reads ((p, w) :: ps) (k.operand p w >>= f)

open Call.Reads in
/-- The harness reads the input ports of the unit in the order of its signature. -/
theorem inputs_reads_inPorts (k : Call) : k.Reads (inPorts k.cfg k.unit) k.inputs := by
  obtain ⟨i, c, ops⟩ := k
  cases i
  case orNWay | bin2Hex | bin2Bcd => exact read fun _ => done _
  case and16 | deMux2way | deMux4way | deMux8way => exact read fun _ => read fun _ => done _
  case barrelShifter | mux2way => exact read fun _ => read fun _ => read fun _ => done _
  case mux4way => exact read fun _ => read fun _ => read fun _ => read fun _ => read fun _ => done _
  case or8Way =>
    exact read fun _ => read fun _ => read fun _ => read fun _ => read fun _ => read fun _ => read fun _ =>
      read fun _ => done _
  case mux8way =>
    exact read fun _ => read fun _ => read fun _ => read fun _ => read fun _ => read fun _ => read fun _ =>
      read fun _ => read fun _ => done _

/-- Where some port cannot be read, the reading ends with the error of such a port. -/
theorem Call.Reads.error_of_unreadable {k : Call} {α : Type} {ps : List (Port × Nat)} {r : Except BadCall α}
    (h : k.Reads ps r) (hbad : ∃ p ∈ ps, ∀ v, k.operand p.1 p.2 ≠ .ok v) :
    ∃ p ∈ ps, ∃ e, k.operand p.1 p.2 = .error e ∧ r = .error e := by
  induction h with
  | done x =>
    obtain ⟨p, hp, _⟩ := hbad
    cases hp
  | @read p w ps f _ ih =>
    cases hop : k.operand p w with
    | error e => exact ⟨(p, w), List.mem_cons_self, e, hop, rfl⟩
    | ok v =>
      obtain ⟨q, hq, hunread⟩ := hbad
      rcases List.mem_cons.mp hq with rfl | hq
      · exact absurd hop (hunread v)
      · obtain ⟨p', hp', e, hop', hr⟩ := ih v ⟨q, hq, hunread⟩
        exact ⟨p', List.mem_cons_of_mem _ hp', e, hop', hr⟩

/-! Calls that are not presented (rule R104). -/

/-- With no stray port, a call with legal parameters is presented as its operands are read. -/
theorem present_of_no_stray {k : Call} (hstray : k.strayPort = none) :
    k.present = if k.cfg.legal then k.inputs.map fun x => ⟨k.cfg, encode k.unit, x, none⟩
      else .error (.refusal .illegalConfig) := by
  unfold Call.present
  rw [hstray]
  cases k.inputs with
  | ok x => rfl
  | error e => rfl

theorem present_of_inputs_error {k : Call} {e : BadCall} (hlegal : k.cfg.legal = true) (hstray : k.strayPort = none)
    (he : k.inputs = .error e) : k.present = .error e := by
  rw [present_of_no_stray hstray, if_pos hlegal, he]
  rfl

theorem evaluate_of_present_error_cause {k : Call} {c : Cause} (h : k.present = .error (.cause c)) :
    k.evaluate = raise c := by
  unfold Call.evaluate
  rw [h]

/-- With no stray port, what a call is presented as does not depend on the order of its operands. -/
theorem present_perm (i : Instr) (c : Config) {ops ops' : List (Port × DynWord)} (h : ops.Perm ops')
    (hstray : (Call.mk i c ops).strayPort = none) : (Call.mk i c ops).present = (Call.mk i c ops').present := by
  have hstray' : (Call.mk i c ops').strayPort = none :=
    strayPort_eq_none_iff.mpr fun o ho => strayPort_eq_none_iff.mp hstray o (h.mem_iff.mpr ho)
  rw [present_of_no_stray hstray, present_of_no_stray hstray', inputs_perm i c h]

/-- In a call that names each input port once, a port that cannot be read has an operand of another width. -/
theorem operand_error_of_names_perm {k : Call}
    (hnames : (k.operands.map Prod.fst).Perm ((inPorts k.cfg k.unit).map Prod.fst)) {p : Port × Nat} {e : BadCall}
    (hp : p ∈ inPorts k.cfg k.unit) (he : k.operand p.1 p.2 = .error e) :
    ∃ o ∈ k.operands, o.1 = p.1 ∧ o.2.width ≠ p.2 ∧ e = .cause (.widthMismatch k.unit p.1 p.2 o.2.width) := by
  obtain ⟨p, w⟩ := p
  have hnodup : (k.operands.map Prod.fst).Nodup := hnames.nodup_iff.mpr (inPorts_names_nodup _ _)
  obtain ⟨o, ho, rfl⟩ := List.mem_map.mp (hnames.mem_iff.mpr (List.mem_map_of_mem hp))
  have hw : o.2.width ≠ w := by
    rintro rfl
    rw [operand_of_mem hnodup ho] at he
    cases he
  rw [operand_of_mem_of_width_ne hnodup ho hw] at he
  exact ⟨o, ho, rfl, hw, (Except.error.inj he).symm⟩

/-! The obligations. -/

/-- Settles O1: each row is its unit's index and signature, and from 12 up no row is left. -/
theorem unitIndicesAndSignatures : Obligations.UnitIndicesAndSignatures := by
  refine ⟨unitRow_encode .and16 ?_ outPorts_and16, unitRow_encode .or8Way ?_ ?_, unitRow_encode .orNWay ?_ ?_,
    unitRow_encode .barrelShifter ?_ ?_, unitRow_encode .mux2way ?_ ?_, unitRow_encode .mux4way ?_ ?_,
    unitRow_encode .mux8way ?_ ?_, unitRow_encode .deMux2way ?_ ?_, unitRow_encode .deMux4way ?_ ?_,
    unitRow_encode .deMux8way ?_ ?_, unitRow_encode .bin2Hex ?_ ?_, unitRow_encode .bin2Bcd ?_ ?_,
    fun _ => decode_unassigned⟩
  all_goals exact fun _ => rfl

/-- Settles O2: both directions are read off the table of rule R47. -/
theorem encodeAndDecodeAgree : Obligations.EncodeAndDecodeAgree :=
  ⟨uidRoundTrip, fun _ _ => encode_of_decode_ok⟩

/-- Settles O4: the index is refused when it is decoded. -/
theorem unassignedIndexIsRefused : Obligations.UnassignedIndexIsRefused :=
  fun _ => step_unassigned

/-- Settles O5: the word's index is its low four bits, and the step goes by the index. -/
theorem tableWordIsEvaluated : Obligations.TableWordIsEvaluated := by
  intro s i nbits high hbits
  have huid := tableWordUid_add_high hbits (encode i) high
  have hfetch : s.withFetchWord nbits ((encode i).toNat + 16 * high) = { s with uid := encode i } := by
    rw [State.withFetchWord, huid]
  refine ⟨?_, hfetch, ?_⟩
  · rw [decodeTableWord, huid, decode_encode]
  · rw [hfetch, step_of_decode_ok (decode_encode i)]

/-- Settles O41: the call is presented as the same state, or refused for the same reason. -/
theorem operandOrderDoesNotMatter : Obligations.OperandOrderDoesNotMatter := by
  rintro ⟨i, c, ops⟩ ⟨_, _, ops'⟩ rfl rfl hperm hstray
  simp only [Call.evaluate, present_perm i c hperm hstray]

/-- Settles O42: the operand that does not fit keeps its port from being read, so the reading of the ports ends with the
error of a port, and where every port has one operand such an error is a width mismatch. -/
theorem widthMismatchIsNeverEvaluated : Obligations.WidthMismatchIsNeverEvaluated := by
  intro k hlegal hnames ⟨o, ho, w, hport, hwidth⟩
  have hnodup : (k.operands.map Prod.fst).Nodup := hnames.nodup_iff.mpr (inPorts_names_nodup _ _)
  have hstray : k.strayPort = none :=
    strayPort_eq_none_iff.mpr fun o ho => hnames.mem_iff.mp (List.mem_map_of_mem ho)
  have hunread : ∀ v, k.operand o.1 w ≠ .ok v := by
    rw [operand_of_mem_of_width_ne hnodup ho hwidth]
    nofun
  obtain ⟨⟨p, w'⟩, hp, e, he, hinputs⟩ :=
    (inputs_reads_inPorts k).error_of_unreadable ⟨(o.1, w), hport, hunread⟩
  obtain ⟨o', ho', hname, hne, rfl⟩ := operand_error_of_names_perm hnames hp he
  have hpresent := present_of_inputs_error hlegal hstray hinputs
  refine ⟨?_, p, w', o'.2.width, hp, ⟨o', ho', hname, rfl⟩, hne, evaluate_of_present_error_cause hpresent⟩
  rw [hpresent]
  nofun

end Sys2Proof.Machine

/-! PROOFS (40_logic_reduction.md). An OR of bits is 0 exactly when each of them is, so `orNWay` tells the zero word
from the others, and And16's logical mode is the AND of two such tests. -/

namespace Sys2Proof.Machine

/-! A bit, and a bit of a word (00_scope.md rules R8 and R11). -/

theorem bit_eq_one_iff {c : Bool} : bit c = 1#1 ↔ c = true := by
  cases c with
  | false => decide
  | true => decide

theorem bit_ne_zero_iff {q : Bit} : q ≠ 0#1 ↔ q = 1#1 := by
  rcases BitVec.eq_zero_or_eq_one q with rfl | rfl
  · decide
  · decide

theorem word_eq_zero_iff_getLsbD {n : Nat} {w : Word n} : w = 0#n ↔ ∀ i < n, w.getLsbD i = false := by
  simp only [BitVec.eq_of_getLsbD_eq_iff, BitVec.getLsbD_zero]

theorem bitAt_eq_zero_iff {n i : Nat} {w : Word n} : bitAt w i = 0#1 ↔ w.getLsbD i = false := by
  simp [word_eq_zero_iff_getLsbD]

theorem uint_ne_zero_iff {n : Nat} {w : Word n} : uint w ≠ 0 ↔ w ≠ 0#n := by
  rw [← BitVec.toNat_ne_iff_ne, BitVec.toNat_zero]

/-! The OR-reductions (rules R61 and R62). -/

theorem or8Way_eq_zero_iff {a b c d e f g h : Bit} : or8Way a b c d e f g h = 0#1 ↔
    a = 0#1 ∧ b = 0#1 ∧ c = 0#1 ∧ d = 0#1 ∧ e = 0#1 ∧ f = 0#1 ∧ g = 0#1 ∧ h = 0#1 := by
  simp only [or8Way, BitVec.or_eq_zero_iff, and_assoc]

/-- The unit names the sixteen bits from 15 down, the range from 0 up. -/
theorem orNWay_eq_zero_iff_getLsbD {a : Word 16} : orNWay a = 0#1 ↔ ∀ i < 16, a.getLsbD i = false := by
  simp only [orNWay, BitVec.or_eq_zero_iff, bitAt_eq_zero_iff, Nat.forall_lt_succ_right, Nat.not_lt_zero, false_imp_iff,
    implies_true, true_and]
  exact iff_of_eq (by ac_rfl)

theorem orNWay_eq_zero_iff {a : Word 16} : orNWay a = 0#1 ↔ a = 0#16 :=
  orNWay_eq_zero_iff_getLsbD.trans word_eq_zero_iff_getLsbD.symm

theorem orNWay_eq_one_iff_getLsbD {a : Word 16} : orNWay a = 1#1 ↔ ∃ i < 16, a.getLsbD i = true := by
  rw [← bit_ne_zero_iff, Ne, orNWay_eq_zero_iff_getLsbD]
  simp only [not_forall, Bool.not_eq_false, exists_prop]

theorem orNWay_eq_one_iff {a : Word 16} : orNWay a = 1#1 ↔ uint a ≠ 0 := by
  rw [← bit_ne_zero_iff, uint_ne_zero_iff, Ne, orNWay_eq_zero_iff]

/-- The equivalent form that rule R62 gives. -/
theorem orNWay_eq_bit (a : Word 16) : orNWay a = bit (decide (uint a ≠ 0)) := by
  by_cases h : uint a ≠ 0
  · rw [orNWay_eq_one_iff.mpr h, bit_eq_one_iff.mpr (decide_eq_true h)]
  · have hzero : orNWay a = 0#1 := by rwa [← orNWay_eq_one_iff, ← bit_ne_zero_iff, not_not] at h
    rw [hzero, decide_eq_false h]
    rfl

theorem orNWay_eq_or8Way (a : Word 16) : orNWay a = or8Way (bitAt a 0 ||| bitAt a 8) (bitAt a 1 ||| bitAt a 9)
    (bitAt a 2 ||| bitAt a 10) (bitAt a 3 ||| bitAt a 11) (bitAt a 4 ||| bitAt a 12) (bitAt a 5 ||| bitAt a 13)
    (bitAt a 6 ||| bitAt a 14) (bitAt a 7 ||| bitAt a 15) := by
  unfold orNWay or8Way
  ac_rfl

/-! And16 in its two modes (rules R59 and R60). -/

theorem getLsbD_and16Bitwise (a b : Word 16) (i : Nat) :
    (and16Bitwise a b).getLsbD i = (a.getLsbD i && b.getLsbD i) := BitVec.getLsbD_and

theorem toNat_and16Bitwise_le (a b : Word 16) : (and16Bitwise a b).toNat ≤ min a.toNat b.toNat := by
  rw [and16Bitwise, BitVec.toNat_and]
  exact Nat.le_min.mpr ⟨Nat.and_le_left, Nat.and_le_right⟩

theorem orNWay_and16Bitwise_eq_one_iff (a b : Word 16) :
    orNWay (and16Bitwise a b) = 1#1 ↔ ∃ i < 16, a.getLsbD i = true ∧ b.getLsbD i = true := by
  simp only [orNWay_eq_one_iff_getLsbD, getLsbD_and16Bitwise, Bool.and_eq_true]

theorem and16Logical_eq_one_iff {a b : Word 16} : and16Logical a b = 1#1 ↔ uint a ≠ 0 ∧ uint b ≠ 0 := by
  rw [and16Logical, bit_eq_one_iff, Bool.and_eq_true, decide_eq_true_iff, decide_eq_true_iff]

theorem and16Logical_eq_orNWay (a b : Word 16) : and16Logical a b = orNWay a &&& orNWay b := by
  rw [orNWay_eq_bit, orNWay_eq_bit, BitVec.ofBool_and_ofBool, and16Logical]

theorem and16Logical_zero_left (b : Word 16) : and16Logical 0#16 b = 0#1 := by
  rw [and16Logical_eq_orNWay, orNWay_eq_zero_iff.mpr rfl, BitVec.zero_and]

theorem and16Logical_zero_right (a : Word 16) : and16Logical a 0#16 = 0#1 := by
  rw [and16Logical_eq_orNWay, orNWay_eq_zero_iff.mpr rfl, BitVec.and_zero]

theorem toNat_asWord_bit (q : Bit) : (And16Out.bit q).asWord.toNat = q.toNat :=
  BitVec.toNat_setWidth_of_le (by decide)

/-- A zero word gives zero in both modes; on two nonzero words the logical result is 1, read as `0x0001`. -/
theorem asWord_bitwise_eq_logical_iff (a b : Word 16) :
    (And16Out.word (and16Bitwise a b)).asWord = (And16Out.bit (and16Logical a b)).asWord ↔
      a = 0#16 ∨ b = 0#16 ∨ a &&& b = 0x0001#16 := by
  by_cases ha : a = 0#16
  · subst ha
    simp [And16Out.asWord, and16Bitwise, and16Logical_zero_left]
  by_cases hb : b = 0#16
  · subst hb
    simp [And16Out.asWord, and16Bitwise, and16Logical_zero_right]
  have hone : and16Logical a b = 1#1 := and16Logical_eq_one_iff.mpr ⟨uint_ne_zero_iff.mpr ha, uint_ne_zero_iff.mpr hb⟩
  simp [And16Out.asWord, and16Bitwise, hone, ha, hb]

/-! The evaluations, by mode. -/

theorem exec_and16_bitwise {s : State} (h : s.cfg.and16Mode = .bitwise) : exec .and16 s =
    .next { s with outcome := some (.and16 (.word (and16Bitwise s.inputs.and16.a s.inputs.and16.b))) } := by
  rw [exec_and16, h]
  rfl

theorem exec_and16_logical {s : State} (h : s.cfg.and16Mode = .logical) : exec .and16 s =
    .next { s with outcome := some (.and16 (.bit (and16Logical s.inputs.and16.a s.inputs.and16.b))) } := by
  rw [exec_and16, h]
  rfl

/-! The obligations. -/

/-- Settles O8: the evaluations are those of the two modes, on one pair of words. -/
theorem and16ModesAgreeExactlyWhere : Obligations.And16ModesAgreeExactlyWhere := by
  intro s t hs ht hin
  refine ⟨_, _, exec_and16_bitwise hs, exec_and16_logical ht, ?_⟩
  rw [hin]
  exact asWord_bitwise_eq_logical_iff _ _

/-- Settles O10: the unit's sixteen bits are the bits of the word. -/
theorem orNWayResult : Obligations.OrNWayResult :=
  ⟨rfl, decode_encode .orNWay, fun s => ⟨_, exec_orNWay s, orNWay_eq_one_iff_getLsbD, orNWay_eq_one_iff⟩⟩

/-- Settles O11: the algebra of And16 is that of the bit-wise AND, and the rest are the laws of `orNWay` above. -/
theorem logicReductionLaws : Obligations.LogicReductionLaws :=
  ⟨fun s => ⟨exec_and16_bitwise, exec_and16_logical, exec_or8Way s, exec_orNWay s⟩,
    BitVec.and_comm,
    fun a b c => (BitVec.and_assoc a b c).symm,
    fun _ => ⟨BitVec.and_self, BitVec.and_allOnes, BitVec.and_zero⟩,
    toNat_and16Bitwise_le,
    orNWay_eq_or8Way,
    fun _ => orNWay_eq_zero_iff,
    orNWay_and16Bitwise_eq_one_iff,
    and16Logical_eq_orNWay⟩

/-- Settles O6: bit-wise mode answers `a & b`, whose bits are the ANDs. -/
theorem and16BitwiseResult : Obligations.And16BitwiseResult :=
  ⟨rfl, decode_encode .and16, fun _ hs => ⟨_, exec_and16_bitwise hs, fun i _ => getLsbD_and16Bitwise _ _ i, rfl⟩⟩

/-- Settles O7: logical mode answers the bit of two nonzero words, and widening keeps its value. -/
theorem and16LogicalResult : Obligations.And16LogicalResult :=
  ⟨rfl, decode_encode .and16, fun _ hs => ⟨_, exec_and16_logical hs, and16Logical_eq_one_iff, toNat_asWord_bit _⟩⟩

/-- Settles O9: an OR is 0 exactly when each of its bits is. -/
theorem or8WayResult : Obligations.Or8WayResult :=
  ⟨rfl, decode_encode .or8Way, fun s => ⟨_, exec_or8Way s, rfl, or8Way_eq_zero_iff⟩⟩

end Sys2Proof.Machine

/-! PROOFS (41_barrel_shifter.md). The unit's function is the fixed-width logical shift for every amount, as the library
shifts by an unbounded natural: neither direction wraps it (rule R67). The laws of the shift are then the library's. -/

namespace Sys2Proof.Machine

/-! The shift on unbounded naturals, cut to the width, is the shift of the word. -/

theorem trunc_uint_shiftRight {w : Nat} (a : Word w) (n : Nat) : trunc w (uint a >>> n) = a >>> n := by
  rw [← BitVec.toNat_ushiftRight, trunc, BitVec.ofNat_toNat, BitVec.setWidth_eq]

theorem trunc_uint_shiftLeft {w : Nat} (a : Word w) (n : Nat) : trunc w (uint a <<< n) = a <<< n := rfl

/-! The function of the unit (rule R65). -/

theorem barrelShift_of_ge (a : Word 16) (dir : Bit) {n : Nat} (h : 16 ≤ n) : barrelShift a dir n = 0#16 := if_pos h

theorem barrelShift_right (a : Word 16) (n : Nat) : barrelShift a 0#1 n = a >>> n := by
  rcases Nat.lt_or_ge n 16 with h | h
  · rw [barrelShift, if_neg (Nat.not_le.mpr h), if_pos rfl, trunc_uint_shiftRight]
  · rw [barrelShift_of_ge a _ h, BitVec.ushiftRight_eq_zero h]

theorem barrelShift_left (a : Word 16) (n : Nat) : barrelShift a 1#1 n = a <<< n := by
  rcases Nat.lt_or_ge n 16 with h | h
  · rw [barrelShift, if_neg (Nat.not_le.mpr h), if_neg (by decide), trunc_uint_shiftLeft]
  · rw [barrelShift_of_ge a _ h, BitVec.shiftLeft_eq_zero h]

theorem toNat_barrelShift_right (a : Word 16) (n : Nat) : (barrelShift a 0#1 n).toNat = a.toNat / 2 ^ n := by
  rw [barrelShift_right, BitVec.toNat_ushiftRight, Nat.shiftRight_eq_div_pow]

theorem toNat_barrelShift_left (a : Word 16) (n : Nat) :
    (barrelShift a 1#1 n).toNat = a.toNat * 2 ^ n % 2 ^ 16 := by
  rw [barrelShift_left, BitVec.toNat_shiftLeft, Nat.shiftLeft_eq]

/-! The bit-level form (rule R66). -/

/-- A bit past bit 15 of `a` reads 0. -/
theorem getLsbD_barrelShift_right (a : Word 16) (n i : Nat) :
    (barrelShift a 0#1 n).getLsbD i = if i + n ≤ 15 then a.getLsbD (i + n) else false := by
  rw [barrelShift_right, BitVec.getLsbD_ushiftRight, Nat.add_comm n i]
  split
  · rfl
  · exact BitVec.getLsbD_of_ge a _ (by omega)

theorem getLsbD_barrelShift_left (a : Word 16) (n : Nat) {i : Nat} (hi : i < 16) :
    (barrelShift a 1#1 n).getLsbD i = if n ≤ i then a.getLsbD (i - n) else false := by
  rw [barrelShift_left, BitVec.getLsbD_shiftLeft]
  by_cases h : n ≤ i
  · simp [hi, h]
  · simp [h]

/-! The laws (rule R68). -/

theorem barrelShift_barrelShift (a : Word 16) (dir : Bit) (m n : Nat) :
    barrelShift (barrelShift a dir m) dir n = barrelShift a dir (m + n) := by
  rcases BitVec.eq_zero_or_eq_one dir with rfl | rfl
  · simp only [barrelShift_right, BitVec.shiftRight_add]
  · simp only [barrelShift_left, BitVec.shiftLeft_add]

/-- Bit `i` comes back from bit `n + i`, which the shift left reaches when it is below the width. -/
theorem shiftLeft_shiftRight_eq_and_allOnes {w : Nat} (a : Word w) (n : Nat) :
    (a <<< n) >>> n = a &&& (BitVec.allOnes w >>> n) := by
  ext i hi
  simp [BitVec.getElem_ushiftRight, BitVec.getLsbD_shiftLeft, BitVec.getLsbD_eq_getElem hi, Bool.and_comm]

theorem barrelShift_left_then_right (a : Word 16) (n : Nat) :
    barrelShift (barrelShift a 1#1 n) 0#1 n = a &&& trunc 16 (0xFFFF >>> n) := by
  have hmask : trunc 16 (0xFFFF >>> n) = BitVec.allOnes 16 >>> n := trunc_uint_shiftRight (BitVec.allOnes 16) n
  rw [barrelShift_left, barrelShift_right, hmask, shiftLeft_shiftRight_eq_and_allOnes]

theorem barrelShift_right_then_left (a : Word 16) (n : Nat) :
    barrelShift (barrelShift a 0#1 n) 1#1 n = a &&& trunc 16 (0xFFFF <<< n) := by
  have hmask : trunc 16 (0xFFFF <<< n) = BitVec.allOnes 16 <<< n := trunc_uint_shiftLeft (BitVec.allOnes 16) n
  rw [barrelShift_right, barrelShift_left, hmask, BitVec.shiftLeft_ushiftRight]

theorem toNat_barrelShift_right_le (a : Word 16) (n : Nat) : (barrelShift a 0#1 n).toNat ≤ a.toNat := by
  rw [toNat_barrelShift_right]
  exact Nat.div_le_self _ _

theorem orNWay_barrelShift_of_ge (a : Word 16) (dir : Bit) {n : Nat} (h : 16 ≤ n) :
    orNWay (barrelShift a dir n) = 0#1 :=
  orNWay_eq_zero_iff.mpr (barrelShift_of_ge a dir h)

/-! The obligations. -/

/-- Settles O13: the unit answers `barrelShift`, whose bits are those of `a` moved by the amount. -/
theorem barrelShifterBitByBit : Obligations.BarrelShifterBitByBit := by
  intro s
  refine ⟨_, exec_barrelShifter s, ?right, ?left⟩
  case right =>
    intro hdir i _
    rw [hdir]
    exact getLsbD_barrelShift_right _ _ i
  case left =>
    intro hdir i hi
    rw [hdir]
    exact getLsbD_barrelShift_left _ _ hi

/-- Settles O14: the laws of `barrelShift` above; the bounds on the amounts of the two round trips are not needed. -/
theorem barrelShifterLaws : Obligations.BarrelShifterLaws :=
  ⟨exec_barrelShifter,
    barrelShift_barrelShift,
    fun a n _ => barrelShift_left_then_right a n,
    fun a n _ => barrelShift_right_then_left a n,
    toNat_barrelShift_right_le,
    fun a dir _ => orNWay_barrelShift_of_ge a dir,
    fun s => Nat.le_sub_one_of_lt s.inputs.barrelShifter.size.isLt⟩

/-- Settles O12: an amount from 16 up gives zero, and below it each direction is its arithmetic on naturals. -/
theorem barrelShifterResult : Obligations.BarrelShifterResult := by
  refine ⟨rfl, decode_encode .barrelShifter, fun s => ⟨_, exec_barrelShifter s, ?zero, ?right, ?left⟩⟩
  case zero => exact barrelShift_of_ge _ _
  case right =>
    intro _ hdir
    rw [hdir]
    exact toNat_barrelShift_right _ _
  case left =>
    intro _ hdir
    rw [hdir]
    exact toNat_barrelShift_left _ _

end Sys2Proof.Machine

/-! PROOFS (42_mux.md). A multiplexer looks its selector up in the list of its data words, so what it answers is a fact
about that list: the entry at the index, an entry of a constant list, an entry shared with a longer list. -/

namespace Sys2Proof.Machine

/-! The shared evaluation, in terms of the list it selects from (rules R69, R73 and R74). -/

theorem muxEvaluate_at {u : Instr} {s : State} {ws : List (Word s.cfg.muxW)} {k j : Nat}
    {drive : Word s.cfg.muxW → Outputs s.cfg} {q : Word s.cfg.muxW} (hk : k = j) (hq : ws[j]? = some q) :
    muxEvaluate u s ws k drive = .next { s with outcome := some (drive q) } := by
  subst hk
  obtain ⟨hlt, rfl⟩ := List.getElem?_eq_some_iff.mp hq
  exact muxEvaluate_of_lt hlt

theorem muxEvaluate_of_forall_mem_eq {u : Instr} {s : State} {ws : List (Word s.cfg.muxW)} {k : Nat}
    {drive : Word s.cfg.muxW → Outputs s.cfg} {v : Word s.cfg.muxW} (hv : ∀ w ∈ ws, w = v) (hk : k < ws.length) :
    muxEvaluate u s ws k drive = .next { s with outcome := some (drive v) } := by
  rw [muxEvaluate_of_lt hk, hv _ (List.getElem_mem hk)]

theorem muxEvaluate_faults_iff {u : Instr} {s : State} {ws : List (Word s.cfg.muxW)} {k : Nat}
    {drive : Word s.cfg.muxW → Outputs s.cfg} (hp : s.cfg.muxOorPolicy = .invalid) :
    (∃ c, muxEvaluate u s ws k drive = .fault (.invalidInput c)) ↔ ws.length ≤ k := by
  constructor
  case mp =>
    rintro ⟨c, hfault⟩
    by_contra hk
    rw [muxEvaluate_of_lt (Nat.lt_of_not_le hk)] at hfault
    cases hfault
  case mpr => exact fun hk => ⟨_, muxEvaluate_invalid hk hp⟩

/-- Two multiplexers answer one word where the narrower one's data begin the wider one's and the selectors read alike. -/
theorem muxEvaluate_agree_of_prefix {u u' : Instr} {s : State} {ws ws' : List (Word s.cfg.muxW)} {k k' : Nat}
    {drive drive' : Word s.cfg.muxW → Outputs s.cfg} (hpre : ws <+: ws') (hsel : k' = k) (hk : k < ws.length) :
    ∃ q, muxEvaluate u s ws k drive = .next { s with outcome := some (drive q) } ∧
      muxEvaluate u' s ws' k' drive' = .next { s with outcome := some (drive' q) } := by
  subst hsel
  refine ⟨ws[k'], muxEvaluate_of_lt hk, ?_⟩
  rw [hpre.getElem hk]
  exact muxEvaluate_of_lt _

/-! The selector port of Mux8way. -/

/-- A selector of three bits indexes one of the eight words (rule R72). -/
theorem mux8way_sel_lt {s : State} (hw : s.cfg.mux8SelW = 3) :
    s.inputs.mux8way.sel.toNat < s.inputs.mux8way.data.length :=
  Nat.lt_of_lt_of_eq s.inputs.mux8way.sel.isLt (congrArg (2 ^ ·) hw)

/-! The obligations. -/

/-- Settles O19: each law is one of the list facts above, at the data of the units it names. -/
theorem muxLaws : Obligations.MuxLaws := by
  intro s
  simp only [exec_mux2way, exec_mux4way, exec_mux8way]
  refine ⟨?equal2, ?equal4, ?equal8, ?faults, ?narrow2, ?narrow4⟩
  case equal2 =>
    intro v ha hb hk
    exact muxEvaluate_of_forall_mem_eq (by simp [Mux2wayIn.data, ha, hb]) hk
  case equal4 =>
    intro v ha hb hc hd hk
    exact muxEvaluate_of_forall_mem_eq (by simp [Mux4wayIn.data, ha, hb, hc, hd]) hk
  case equal8 =>
    intro v ha hb hc hd he hf hg hh hk
    exact muxEvaluate_of_forall_mem_eq (by simp [Mux8wayIn.data, ha, hb, hc, hd, he, hf, hg, hh]) hk
  case faults =>
    intro hp
    exact ⟨muxEvaluate_faults_iff hp, muxEvaluate_faults_iff hp, muxEvaluate_faults_iff hp⟩
  case narrow2 =>
    intro ha hb hsel hk
    have hprefix : s.inputs.mux2way.data <+: s.inputs.mux4way.data := by
      simp [Mux2wayIn.data, Mux4wayIn.data, ha, hb]
    exact muxEvaluate_agree_of_prefix hprefix hsel hk
  case narrow4 =>
    intro ha hb hc hd hsel hk
    have hprefix : s.inputs.mux4way.data <+: s.inputs.mux8way.data := by
      simp [Mux4wayIn.data, Mux8wayIn.data, ha, hb, hc, hd]
    exact muxEvaluate_agree_of_prefix hprefix hsel hk

/-- Settles O15: the selector indexes the list `[a, b]`. -/
theorem mux2wayResult : Obligations.Mux2wayResult := by
  refine ⟨rfl, decode_encode .mux2way, fun s => ?_⟩
  simp only [exec_mux2way]
  exact ⟨fun h => muxEvaluate_at h rfl, fun h => muxEvaluate_at h rfl, fun hk hp => muxEvaluate_invalid hk hp⟩

/-- Settles O16: the selector, however wide, indexes the list `[a, b, c, d]`. -/
theorem mux4wayResult : Obligations.Mux4wayResult := by
  refine ⟨rfl, decode_encode .mux4way, fun s => ?_⟩
  simp only [exec_mux4way]
  exact ⟨fun h => muxEvaluate_at h rfl, fun h => muxEvaluate_at h rfl, fun h => muxEvaluate_at h rfl,
    fun h => muxEvaluate_at h rfl, fun hk hp => muxEvaluate_invalid hk hp⟩

/-- Settles O17: a selector of three bits cannot leave the list of the eight words, and a wider one can. -/
theorem mux8wayResult : Obligations.Mux8wayResult := by
  refine ⟨rfl, decode_encode .mux8way, fun s => ?_⟩
  simp only [exec_mux8way]
  refine ⟨?selected, ?threeBits, ?invalid, ?zero⟩
  case selected => exact fun q hq => muxEvaluate_at rfl hq
  case threeBits =>
    intro hw
    have hk := mux8way_sel_lt hw
    exact ⟨_, List.getElem?_eq_getElem hk, muxEvaluate_of_lt hk⟩
  case invalid => exact fun hk hp => muxEvaluate_invalid hk hp
  case zero => exact fun hk hp => muxEvaluate_zero hk hp

/-- Settles O18: out of range the policy alone decides, since no data word is selected. -/
theorem muxOutOfRangePolicies : Obligations.MuxOutOfRangePolicies := by
  intro s
  simp only [exec_mux2way, exec_mux4way]
  exact ⟨fun hp => ⟨fun hk => muxEvaluate_invalid hk hp, fun hk => muxEvaluate_invalid hk hp⟩,
    fun hp => ⟨fun hk => muxEvaluate_zero hk hp, fun hk => muxEvaluate_zero hk hp⟩⟩

end Sys2Proof.Machine

/-! PROOFS (43_demux.md). The outputs of a demultiplexer are its lanes, `demuxLane a k` at each output
number. The lane numbered `k` is the only one that carries the word, which gives the OR of all lanes and the word that
a multiplexer selects from them. -/

namespace Sys2Proof.Machine

/-! One lane (rule R75). -/

/-- The selector compared with the output's number, as rules R76 to R78 write it. -/
theorem demuxLane_eq_ite {n : Nat} (a : Word n) (k j : Nat) : demuxLane a k j = if k = j then a else 0#n :=
  if_congr eq_comm rfl rfl

theorem toNat_demuxLane {n : Nat} (a : Word n) (k j : Nat) :
    (demuxLane a k j).toNat = if j = k then a.toNat else 0 := by
  rw [demuxLane, apply_ite BitVec.toNat, BitVec.toNat_zero]

/-! All lanes of a demultiplexer (rule R80). -/

/-- The word enters the OR with the lane the selector names, and stays: with lanes up to number `last`, it is there
exactly when the selector reads at most `last`. -/
theorem or_demuxLanes {n : Nat} (a : Word n) (k last : Nat) :
    ((List.range' 1 last).map (demuxLane a k)).foldl (· ||| ·) (demuxLane a k 0) =
      if k < last + 1 then a else 0#n := by
  induction last with
  | zero => simp only [List.range'_zero, List.map_nil, List.foldl_nil, demuxLane_eq_ite, Nat.zero_add, Nat.lt_one_iff]
  | succ j ih =>
    rw [List.range'_1_concat, List.map_append, List.foldl_append, ih, List.map_singleton, List.foldl_cons,
      List.foldl_nil, Nat.add_comm 1 j]
    rcases Nat.lt_trichotomy k (j + 1) with hlt | rfl | hgt
    · rw [if_pos hlt, demuxLane_other a hlt.ne', if_pos (Nat.lt_succ_of_lt hlt), BitVec.or_zero]
    · rw [if_neg (Nat.lt_irrefl _), demuxLane_selected, if_pos (Nat.lt_succ_self _), BitVec.zero_or]
    · rw [if_neg (Nat.not_lt_of_gt hgt), demuxLane_other a hgt.ne, if_neg (Nat.not_lt_of_ge hgt), BitVec.zero_or]

/-- A multiplexer fed with the lanes, in order, of a demultiplexer answers the lane its selector names (rules R69 and
R80). The two may differ in word length, so the words are compared as numbers. -/
theorem muxEvaluate_of_demuxLanes {u : Instr} {t : State} {ws : List (Word t.cfg.muxW)} {k' : Nat}
    {drive : Word t.cfg.muxW → Outputs t.cfg} {n k ways : Nat} {a : Word n}
    (hws : ws.map BitVec.toNat = ((List.range ways).map (demuxLane a k)).map BitVec.toNat) (hk' : k' < ways) :
    ∃ q, muxEvaluate u t ws k' drive = .next { t with outcome := some (drive q) } ∧
      q.toNat = if k' = k then a.toNat else 0 := by
  have hlength : ws.length = ways := by simpa using congrArg List.length hws
  have hk : k' < ws.length := hlength ▸ hk'
  refine ⟨ws[k'], muxEvaluate_of_lt hk, ?_⟩
  have hlane : ws[k'].toNat = (demuxLane a k k').toNat := by
    simpa [hk, hk'] using congrArg (·[k']?) hws
  rw [hlane, toNat_demuxLane]

/-! The evaluations. -/

theorem complete_inj {s : State} {o o' : Outputs s.cfg} (h : complete s o = .next { s with outcome := some o' }) :
    o = o' := by
  simpa using h

/-- The selector of DeMux8way has three bits, so it names an output (rule R78). -/
theorem deMux8way_sel_lt (s : State) : s.inputs.deMux8way.sel.toNat < 8 := s.inputs.deMux8way.sel.isLt

/-! The obligations. -/

/-- Settles O24: the outputs are the lanes below the number of ways, and the three bits of DeMux8way's selector are
always in range. -/
theorem demuxOutputsOrToTheWord : Obligations.DemuxOutputsOrToTheWord := by
  intro s
  refine ⟨?two, ?four, ?eight⟩
  case two =>
    exact ⟨_, _, exec_deMux2way s, atMostOneNonzero_demuxLanes _ _ (List.nodup_range (n := 2)), or_demuxLanes _ _ 1⟩
  case four =>
    exact ⟨_, _, _, _, exec_deMux4way s, atMostOneNonzero_demuxLanes _ _ (List.nodup_range (n := 4)), or_demuxLanes _ _ 3⟩
  case eight =>
    exact ⟨_, _, _, _, _, _, _, _, exec_deMux8way s, atMostOneNonzero_demuxLanes _ _ (List.nodup_range (n := 8)),
      (or_demuxLanes _ _ 7).trans (if_pos (deMux8way_sel_lt s))⟩

/-- Settles O25: the outputs are the lanes, whichever way the demultiplexer's selector reads, and the multiplexer looks
its own selector up in them. -/
theorem muxOfDemuxReturnsTheWord : Obligations.MuxOfDemuxReturnsTheWord := by
  refine ⟨?two, ?four, ?eight⟩
  case two =>
    intro s t q0 q1 hdemux hdata _ hk
    obtain ⟨rfl, rfl⟩ := Outputs.deMux2way.inj (complete_inj hdemux)
    exact muxEvaluate_of_demuxLanes (ways := 2) hdata hk
  case four =>
    intro s t q0 q1 q2 q3 hdemux hdata _ hk
    obtain ⟨rfl, rfl, rfl, rfl⟩ := Outputs.deMux4way.inj (complete_inj hdemux)
    exact muxEvaluate_of_demuxLanes (ways := 4) hdata hk
  case eight =>
    intro s t q0 q1 q2 q3 q4 q5 q6 q7 hdemux hdata hk
    obtain ⟨rfl, rfl, rfl, rfl, rfl, rfl, rfl, rfl⟩ := Outputs.deMux8way.inj (complete_inj hdemux)
    exact muxEvaluate_of_demuxLanes (ways := 8) hdata hk

/-- Settles O20: both lanes, with the selector compared first. -/
theorem deMux2wayResult : Obligations.DeMux2wayResult := by
  refine ⟨rfl, decode_encode .deMux2way, fun s => ?_⟩
  simp only [exec_deMux2way, complete_eq, demuxLane_eq_ite]

/-- Settles O21: the four lanes, with the selector compared first. -/
theorem deMux4wayResult : Obligations.DeMux4wayResult := by
  refine ⟨rfl, decode_encode .deMux4way, fun s => ?_⟩
  simp only [exec_deMux4way, complete_eq, demuxLane_eq_ite]

/-- Settles O22: the eight lanes, one of which the three bits of the selector name. -/
theorem deMux8wayResult : Obligations.DeMux8wayResult := by
  refine ⟨rfl, decode_encode .deMux8way, fun s => ⟨deMux8way_sel_lt s, ?_⟩⟩
  simp only [exec_deMux8way, complete_eq, demuxLane_eq_ite]

/-- Settles O23: no output has the number the selector reads. -/
theorem demuxOutOfRangeIsAllZero : Obligations.DemuxOutOfRangeIsAllZero := by
  refine fun s => ⟨fun hk => ?two, fun hk => ?four⟩
  case two => simp (disch := omega) only [exec_deMux2way, demuxLane_other, complete_eq]
  case four => simp (disch := omega) only [exec_deMux4way, demuxLane_other, complete_eq]

end Sys2Proof.Machine

/-! PROOFS (44_bin2hex.md). Bin2Hex looks up the number its low five bits spell. The sixteen patterns, followed by the
default once for each key from 16 up, are the column of the lookup. -/

namespace Sys2Proof.Machine

/-! The key (rule R83). -/

theorem getLsbD_slice_zero {n len i : Nat} (w : Word n) (h : i < len) : (slice 0 len w).getLsbD i = w.getLsbD i := by
  simp [h]

theorem segmentKey_lt {n : Nat} (bin : Word n) : segmentKey bin < 32 := (slice 0 5 bin).isLt

/-- Inputs that agree on their low five bits have one key, whatever their widths. -/
theorem segmentKey_congr {m n : Nat} {v : Word m} {w : Word n} (h : ∀ i < 5, v.getLsbD i = w.getLsbD i) :
    segmentKey v = segmentKey w := by
  have hslice : slice 0 5 v = slice 0 5 w := by
    refine BitVec.eq_of_getLsbD_eq fun i hi => ?_
    rw [getLsbD_slice_zero v hi, getLsbD_slice_zero w hi, h i hi]
  exact congrArg uint hslice

/-- Bit 4 takes part in the key, with its weight 16. -/
theorem segmentKey_ge_of_getLsbD_four {n : Nat} {bin : Word n} (h : bin.getLsbD 4 = true) : 16 ≤ segmentKey bin := by
  have hbit : (segmentKey bin).testBit 4 = true := (getLsbD_slice_zero bin (by decide)).trans h
  exact Nat.ge_two_pow_of_testBit hbit

/-! The lookup (rules R81 and R82). -/

theorem segmentPatterns_getElem? : ∀ k < 16, segmentPatterns[k]? = some (segmentOf k).toNat := by
  decide

/-- The column "hex" of rule R82 for all 32 keys: the sixteen patterns, then the default. -/
theorem segmentColumn_getElem? {k : Nat} (h : k < 32) :
    (segmentPatterns ++ List.replicate 16 segmentDefault.toNat)[k]? = some (segmentOf k).toNat := by
  have hlength : segmentPatterns.length = 16 := rfl
  rcases Nat.lt_or_ge k 16 with hk | hk
  · rw [List.getElem?_append_left (hlength ▸ hk), segmentPatterns_getElem? k hk]
  · rw [List.getElem?_append_right (hlength ▸ hk), List.getElem?_replicate_of_lt (by omega),
      segmentOf_default (by omega)]

theorem exec_bin2Hex_of_ge {s : State} (h : 15 ≤ segmentKey s.inputs.bin2Hex.bin) :
    exec .bin2Hex s = complete s (.bin2Hex segmentDefault) := by
  rw [exec_bin2Hex, segmentOf_default h]

/-! The obligations. -/

/-- Settles O26: the printed column is the sixteen patterns and the default, and the key stays below 32. -/
theorem bin2HexTable : Obligations.Bin2HexTable := by
  refine ⟨rfl, decode_encode .bin2Hex, fun s => ⟨_, exec_bin2Hex s, ?_⟩⟩
  rw [← segmentKey_eq_mod]
  exact segmentColumn_getElem? (segmentKey_lt _)

/-- Settles O27: the key is a function of the low five bits, and bit 4 takes it past the table's last exact entry. -/
theorem bin2HexConsultsLowFiveBits : Obligations.Bin2HexConsultsLowFiveBits := by
  refine ⟨fun s t hagree => ⟨_, exec_bin2Hex s, ?_⟩, fun s hbit => ?_⟩
  · rw [segmentKey_congr hagree]
    exact exec_bin2Hex t
  · have hkey : 16 ≤ segmentKey s.inputs.bin2Hex.bin := segmentKey_ge_of_getLsbD_four hbit
    exact exec_bin2Hex_of_ge (by omega)

end Sys2Proof.Machine

/-! PROOFS (45_bin2bcd.md). The row and the column of a cell of the 100-entry table are the quotient and the remainder
by ten of the cell's number. -/

namespace Sys2Proof.Machine

/-! The digits of a cell's number (rule R88). -/

theorem tensDigit_of_cell (t : Nat) {u : Nat} (hu : u ≤ 9) : tensDigit (10 * t + u) = BitVec.ofNat 4 t := by
  have hrow : (10 * t + u) / 10 = t := by omega
  rw [tensDigit, hrow]

theorem onesDigit_of_cell (t : Nat) {u : Nat} (hu : u ≤ 9) : onesDigit (10 * t + u) = BitVec.ofNat 4 u := by
  have hcolumn : (10 * t + u) % 10 = u := by omega
  rw [onesDigit, hcolumn]

/-! The obligations. -/

/-- Settles O29: no cell's number reaches 100, so the evaluation completes, and its digits are the cell's labels. -/
theorem bin2BcdEqualsTable : Obligations.Bin2BcdEqualsTable := by
  intro s t u ht hu hcell
  have hlt : s.inputs.bin2Bcd.b.toNat < 100 := by omega
  rw [exec_bin2Bcd_of_lt hlt, hcell, tensDigit_of_cell t hu, onesDigit_of_cell t hu, complete_eq]

/-- Settles O28: the two sides of 100 are the two cases of the evaluation, and a quotient below ten fits a digit. -/
theorem bin2BcdResult : Obligations.Bin2BcdResult := by
  refine ⟨rfl, decode_encode .bin2Bcd, fun s => ⟨fun hlt => ?digits, fun hge => ?raises⟩⟩
  case digits => exact ⟨_, _, exec_bin2Bcd_of_lt hlt, toNat_tensDigit hlt, toNat_onesDigit _⟩
  case raises => exact exec_bin2Bcd_of_ge hge

end Sys2Proof.Machine

/-! PROOFS (60_exceptions.md). A unit's contract decides between its completion and its own cause. In an accepted
composition every connection has the width of its port, so a node whose feeders all have outputs is presented as a call
that fits; and after an admissible run the trace holds, for every node, the node's outcome in that very trace. -/

namespace Sys2Proof.Machine

/-! The causes a unit raises (rules R91 and R92). -/

theorem code_of_violationCause {i : Instr} {s : State} {c : Cause} (h : violationCause i s = some c) :
    c.code = 1 ∨ c.code = 2 := by
  cases i <;> dsimp only [violationCause] at h
  case mux2way | mux4way | mux8way =>
    obtain rfl := Option.some.inj h
    exact .inl rfl
  case bin2Bcd =>
    obtain rfl := Option.some.inj h
    exact .inr rfl
  all_goals cases h

/-- Only the indices rule R47 leaves unassigned are refused. -/
theorem decode_error {u v : Word 4} (h : decode u = .error (.unassigned v)) : v = u ∧ 12 ≤ u.toNat := by
  have hle : 12 ≤ u.toNat := by
    unfold decode at h
    split at h
    case h_13 => grind
    all_goals cases h
  rw [decode_unassigned hle] at h
  exact ⟨(DecodeError.unassigned.inj (Except.error.inj h)).symm, hle⟩

/-! The output ports of a completed evaluation (30_encoding.md rule R48). -/

/-- Lawful outputs stand on the ports of the unit's signature, each with its width. -/
theorem outputs_ports_signature {c : Config} {o : Outputs c} (h : o.lawful) :
    o.ports.map (fun y => (y.1, y.2.width)) = outPorts c o.unit := by
  cases o with
  | and16 q =>
    have hwidth : q.dyn.width = and16OutWidth c := by
      cases q with
      | word q => rw [and16OutWidth, show c.and16Mode = .bitwise from h]; rfl
      | bit q => rw [and16OutWidth, show c.and16Mode = .logical from h]; rfl
    exact congrArg (fun w => [(Port.q, w)]) hwidth
  | _ => rfl

/-! Association lists, which traces and port lists are. -/

theorem lookup_map_snd {α β γ : Type} [BEq α] (f : β → γ) (l : List (α × β)) (a : α) :
    (l.map fun y => (y.1, f y.2)).lookup a = (l.lookup a).map f := by
  induction l with
  | nil => rfl
  | cons y ys ih =>
    rw [List.map_cons, List.lookup_cons, List.lookup_cons, ih]
    cases a == y.1 <;> rfl

theorem lookup_eq_some_iff_mem {β : Type} {l : List (Nat × β)} (h : (l.map Prod.fst).Nodup) {k : Nat} {b : β} :
    l.lookup k = some b ↔ (k, b) ∈ l := by
  induction l with
  | nil => simp
  | cons y ys ih =>
    obtain ⟨hy, hys⟩ := List.nodup_cons.mp h
    rw [List.lookup_cons, List.mem_cons]
    cases hk : k == y.1
    case false =>
      have hne : (k, b) ≠ y := by
        rintro rfl
        simp at hk
      simp [ih hys, hne]
    case true =>
      obtain rfl := beq_iff_eq.mp hk
      have hfresh : (y.1, b) ∉ ys := fun hmem => hy (List.mem_map.mpr ⟨_, hmem, rfl⟩)
      simp [hfresh, Prod.ext_iff, eq_comm]

/-! The value of a connection (rule R99 and 70_reset_and_hazards.md rule R116). -/

/-- Node `j` has outputs. -/
def Driven (tr : Trace) (j : Nat) : Prop :=
  ∃ outs, tr.lookup j = some (.ok outs)

/-- The outputs in the trace stand on the output ports of their nodes, each with its width. -/
def Circuit.OutputsFit (C : Circuit) (tr : Trace) : Prop :=
  ∀ k nd outs, C.nodes[k]? = some nd → tr.lookup k = some (.ok outs) →
    outs.map (fun y => (y.1, y.2.width)) = outPorts nd.cfg nd.unit

/-- A source has a value only when every node it takes its value from has outputs. -/
theorem driven_of_source_value {inputs : List DynWord} {tr : Trace} (s : Source) {v : DynWord}
    (h : s.value inputs tr = some v) : ∀ j ∈ s.feeders, Driven tr j := by
  induction s generalizing v with
  | const | input => exact fun j hj => absurd hj List.not_mem_nil
  | net k p =>
    intro j hj
    obtain rfl := List.mem_singleton.mp hj
    dsimp only [Source.value, netValue] at h
    split at h
    case h_1 outs hlookup => exact ⟨outs, hlookup⟩
    case h_2 => cases h
  | zext n s ih | slice hi lo s ih =>
    obtain ⟨u, hu, _⟩ := Option.bind_eq_some_iff.mp h
    exact ih hu

/-- A source that has a width has a value of that width as soon as the nodes it takes it from have outputs. -/
theorem source_value_of_width {C : Circuit} {tr : Trace} (hfit : C.OutputsFit tr) (s : Source) {w : Nat}
    (hw : s.width C = some w) (hdriven : ∀ j ∈ s.feeders, Driven tr j) :
    ∃ b : Word w, s.value C.inputs tr = some ⟨w, b⟩ := by
  induction s generalizing w with
  | const v =>
    obtain rfl := Option.some.inj hw
    exact ⟨v.bits, rfl⟩
  | input i =>
    obtain ⟨v, hv, rfl⟩ := Option.map_eq_some_iff.mp hw
    exact ⟨v.bits, hv⟩
  | net k p =>
    obtain ⟨nd, hnd, hport⟩ := Option.bind_eq_some_iff.mp hw
    obtain ⟨outs, houts⟩ := hdriven k (List.mem_singleton_self k)
    rw [← hfit k nd outs hnd houts, lookup_map_snd] at hport
    obtain ⟨v, hv, rfl⟩ := Option.map_eq_some_iff.mp hport
    refine ⟨v.bits, ?_⟩
    simp only [Source.value, netValue, houts, hv]
  | zext n s ih =>
    obtain ⟨u, hu, hn⟩ := Option.bind_eq_some_iff.mp hw
    obtain ⟨hle, hn⟩ := Option.ite_none_right_eq_some.mp hn
    obtain rfl := Option.some.inj hn
    obtain ⟨b, hb⟩ := ih hu hdriven
    exact ⟨_, by rw [Source.value, hb]; exact if_pos hle⟩
  | slice hi lo s ih =>
    obtain ⟨u, hu, hn⟩ := Option.bind_eq_some_iff.mp hw
    obtain ⟨hbits, hn⟩ := Option.ite_none_right_eq_some.mp hn
    obtain rfl := Option.some.inj hn
    obtain ⟨b, hb⟩ := ih hu hdriven
    exact ⟨_, by rw [Source.value, hb]; exact if_pos hbits⟩

/-! The values on the input ports of a node. -/

theorem operandValues_cons_eq_some_iff {inputs : List DynWord} {tr : Trace} {o : Port × Source}
    {rest : List (Port × Source)} {vs : List (Port × DynWord)} :
    operandValues inputs tr (o :: rest) = some vs ↔ ∃ v us, o.2.value inputs tr = some v ∧
      operandValues inputs tr rest = some us ∧ vs = (o.1, v) :: us := by
  rw [operandValues]
  cases o.2.value inputs tr <;> cases operandValues inputs tr rest <;> simp [eq_comm]

theorem operandValues_names {inputs : List DynWord} {tr : Trace} {ops : List (Port × Source)}
    {vs : List (Port × DynWord)} (h : operandValues inputs tr ops = some vs) :
    vs.map Prod.fst = ops.map Prod.fst := by
  induction ops generalizing vs with
  | nil => obtain rfl := Option.some.inj h; rfl
  | cons o rest ih =>
    obtain ⟨v, us, _, hus, rfl⟩ := operandValues_cons_eq_some_iff.mp h
    rw [List.map_cons, List.map_cons, ih hus]

theorem operandValues_filter {inputs : List DynWord} {tr : Trace} {ops : List (Port × Source)}
    {vs : List (Port × DynWord)} (h : operandValues inputs tr ops = some vs) (p : Port) :
    operandValues inputs tr (ops.filter fun o => o.1 == p) = some (vs.filter fun o => o.1 == p) := by
  induction ops generalizing vs with
  | nil => obtain rfl := Option.some.inj h; rfl
  | cons o rest ih =>
    obtain ⟨v, us, hv, hus, rfl⟩ := operandValues_cons_eq_some_iff.mp h
    rw [List.filter_cons, List.filter_cons]
    cases hp : o.1 == p
    case false => exact ih hus
    case true => exact operandValues_cons_eq_some_iff.mpr ⟨v, _, hv, ih hus, rfl⟩

theorem exists_operandValues_iff {inputs : List DynWord} {tr : Trace} {ops : List (Port × Source)} :
    (∃ vs, operandValues inputs tr ops = some vs) ↔ ∀ o ∈ ops, ∃ v, o.2.value inputs tr = some v := by
  induction ops with
  | nil => exact ⟨fun _ o ho => absurd ho List.not_mem_nil, fun _ => ⟨[], rfl⟩⟩
  | cons o rest ih =>
    rw [List.forall_mem_cons, ← ih]
    simp only [operandValues_cons_eq_some_iff]
    constructor
    · rintro ⟨_, v, us, hv, hus, _⟩
      exact ⟨⟨v, hv⟩, us, hus⟩
    · rintro ⟨⟨v, hv⟩, us, hus⟩
      exact ⟨_, v, us, hv, hus, rfl⟩

/-! A node the builder finds nothing wrong with (20_memory.md rule R37, rule R104). -/

/-- The parameters of the node are legal, its connections name input ports of its unit, and each input port has exactly
one connection, which has the port's width. -/
structure Node.WellConnected (C : Circuit) (nd : Node) : Prop where
  legal : nd.cfg.legal = true
  known : ∀ o ∈ nd.operands, o.1 ∈ (inPorts nd.cfg nd.unit).map Prod.fst
  single : ∀ p w, (p, w) ∈ inPorts nd.cfg nd.unit →
    ∃ s, nd.operands.filter (fun o => o.1 == p) = [(p, s)] ∧ s.width C = some w

/-- Every node of the composition is well connected. -/
def Circuit.WellConnected (C : Circuit) : Prop :=
  ∀ (k : Nat) (nd : Node), C.nodes[k]? = some nd → nd.WellConnected C

theorem connection_of_portError_none {C : Circuit} {k : Nat} {nd : Node} {p : Port} {w : Nat}
    (h : nd.portError C k p w = none) :
    ∃ s, nd.operands.filter (fun o => o.1 == p) = [(p, s)] ∧ s.width C = some w := by
  unfold Node.portError at h
  split at h
  case h_1 => cases h
  case h_2 p' s hfilter =>
    have hmem : (p', s) ∈ nd.operands.filter (fun o => o.1 == p) := hfilter ▸ List.mem_singleton_self _
    obtain rfl : p' = p := by simpa using (List.mem_filter.mp hmem).2
    refine ⟨s, hfilter, ?_⟩
    split at h
    case h_1 => cases h
    case h_2 v hv =>
      split at h
      case isTrue hvw => rw [hv, hvw]
      case isFalse => cases h
  case h_3 => cases h

theorem wellConnected_of_error_none {C : Circuit} {k : Nat} {nd : Node} (h : nd.error C k = none) :
    nd.WellConnected C := by
  unfold Node.error at h
  split at h
  case isFalse => cases h
  case isTrue hlegal =>
    split at h
    case h_1 => cases h
    case h_2 hknown =>
      refine ⟨hlegal, fun o ho => ?_, fun p w hp => ?_⟩
      · simpa using List.find?_eq_none.mp hknown o.1 (List.mem_map_of_mem ho)
      · exact connection_of_portError_none (List.findSome?_eq_none_iff.mp h (p, w) hp)

/-- Every connection of such a node has a width. -/
theorem Node.WellConnected.exists_width {C : Circuit} {nd : Node} (h : nd.WellConnected C) {o : Port × Source}
    (ho : o ∈ nd.operands) : ∃ w, o.2.width C = some w := by
  obtain ⟨⟨p, w⟩, hp, hname⟩ := List.mem_map.mp (h.known o ho)
  obtain ⟨s, hfilter, hw⟩ := h.single p w hp
  have hmem : o ∈ nd.operands.filter (fun x => x.1 == p) := List.mem_filter.mpr ⟨ho, by simp [← hname]⟩
  rw [hfilter, List.mem_singleton] at hmem
  exact ⟨w, hmem ▸ hw⟩

/-- Such a node has a value on every port once every node that feeds it has outputs. -/
theorem Node.WellConnected.exists_operandValues {C : Circuit} {nd : Node} (h : nd.WellConnected C) {tr : Trace}
    (hfit : C.OutputsFit tr) (hdriven : ∀ j ∈ nd.feeders, Driven tr j) :
    ∃ vs, operandValues C.inputs tr nd.operands = some vs := by
  refine exists_operandValues_iff.mpr fun o ho => ?_
  obtain ⟨w, hw⟩ := h.exists_width ho
  obtain ⟨b, hb⟩ := source_value_of_width hfit o.2 hw fun j hj => hdriven j (List.mem_flatMap.mpr ⟨o, ho, hj⟩)
  exact ⟨_, hb⟩

/-- In the call made of the values on its ports, each input port of the unit can be read. -/
theorem Node.WellConnected.exists_operand {C : Circuit} {nd : Node} (h : nd.WellConnected C) {tr : Trace}
    (hfit : C.OutputsFit tr) (hdriven : ∀ j ∈ nd.feeders, Driven tr j) {vs : List (Port × DynWord)}
    (hvs : operandValues C.inputs tr nd.operands = some vs) (p : Port) (w : Nat)
    (hp : (p, w) ∈ inPorts nd.cfg nd.unit) : ∃ b : Word w, (Call.mk nd.unit nd.cfg vs).operand p w = .ok b := by
  obtain ⟨s, hfilter, hw⟩ := h.single p w hp
  have hmem : (p, s) ∈ nd.operands := List.mem_of_mem_filter (hfilter ▸ List.mem_singleton_self _)
  obtain ⟨b, hb⟩ := source_value_of_width hfit s hw fun j hj => hdriven j (List.mem_flatMap.mpr ⟨_, hmem, hj⟩)
  have hvalues := operandValues_filter hvs p
  rw [hfilter, operandValues_cons_eq_some_iff] at hvalues
  obtain ⟨v, us, hv, hus, hvalue⟩ := hvalues
  obtain rfl : ⟨w, b⟩ = v := Option.some.inj (hb.symm.trans hv)
  obtain rfl : [] = us := Option.some.inj hus
  exact ⟨b, operand_ok_iff.mpr hvalue⟩

/-- That call is presented, so the node's unit is evaluated. -/
theorem Node.WellConnected.evaluate_call {C : Circuit} {nd : Node} (h : nd.WellConnected C) {tr : Trace}
    (hfit : C.OutputsFit tr) (hdriven : ∀ j ∈ nd.feeders, Driven tr j) {vs : List (Port × DynWord)}
    (hvs : operandValues C.inputs tr nd.operands = some vs) :
    ∃ s : State, s.cfg = nd.cfg ∧ (Call.mk nd.unit nd.cfg vs).evaluate = exec nd.unit s := by
  have hstray : (Call.mk nd.unit nd.cfg vs).strayPort = none := by
    refine strayPort_eq_none_iff.mpr fun x hx => ?_
    obtain ⟨o, ho, hname⟩ := List.mem_map.mp (operandValues_names hvs ▸ List.mem_map_of_mem (f := Prod.fst) hx)
    exact hname ▸ h.known o ho
  choose! val hval using h.exists_operand hfit hdriven hvs
  obtain ⟨x, hx, _⟩ := inputs_of_operands (k := ⟨nd.unit, nd.cfg, vs⟩) fun p hp => hval p.1 p.2 hp
  exact ⟨_, rfl, evaluate_of_present_exec (present_of_inputs h.legal hstray hx)⟩

/-! The outcome of a node (rule R99). -/

theorem node_evaluate_of_undriven {inputs : List DynWord} {tr : Trace} {nd : Node} {j : Nat} (hj : j ∈ nd.feeders)
    (hundriven : ¬ Driven tr j) : nd.evaluate inputs tr = .notEvaluated := by
  unfold Node.evaluate
  cases hvs : operandValues inputs tr nd.operands with
  | none => rfl
  | some vs =>
    obtain ⟨o, ho, hfeeds⟩ := List.mem_flatMap.mp hj
    obtain ⟨v, hv⟩ := exists_operandValues_iff.mp ⟨vs, hvs⟩ o ho
    exact absurd (driven_of_source_value o.2 hv j hfeeds) hundriven

/-- The node's unit has been evaluated: it answers outputs on its output ports, or raises one of the units' causes. -/
def Node.Evaluated (nd : Node) (oc : NodeOutcome) : Prop :=
  (∃ outs, oc = .ok outs ∧ outs.map (fun y => (y.1, y.2.width)) = outPorts nd.cfg nd.unit) ∨
  (∃ c, oc = .invalid c ∧ (c.code = 1 ∨ c.code = 2))

theorem Node.WellConnected.evaluated_of_driven {C : Circuit} {nd : Node} (h : nd.WellConnected C) {tr : Trace}
    (hfit : C.OutputsFit tr) (hdriven : ∀ j ∈ nd.feeders, Driven tr j) :
    nd.Evaluated (nd.evaluate C.inputs tr) := by
  obtain ⟨vs, hvs⟩ := h.exists_operandValues hfit hdriven
  obtain ⟨s, hcfg, hcall⟩ := h.evaluate_call hfit hdriven hvs
  simp only [Node.evaluate, hvs, hcall]
  rcases exec_followsContract nd.unit s with ⟨_, o, hunit, hlawful, hexec⟩ | ⟨_, c, hcause, hexec⟩
  · rw [hexec]
    refine .inl ⟨o.ports, rfl, ?_⟩
    rw [← hcfg, ← hunit]
    exact outputs_ports_signature hlawful
  · rw [hexec]
    exact .inr ⟨c, rfl, code_of_violationCause hcause⟩

/-- The node's feeders decide whether it is evaluated, and nothing else does. -/
theorem Node.WellConnected.evaluate_cases {C : Circuit} {nd : Node} (h : nd.WellConnected C) {tr : Trace}
    (hfit : C.OutputsFit tr) :
    (nd.evaluate C.inputs tr = .notEvaluated ∧ ∃ j ∈ nd.feeders, ¬ Driven tr j) ∨
    (nd.Evaluated (nd.evaluate C.inputs tr) ∧ ∀ j ∈ nd.feeders, Driven tr j) := by
  by_cases hdriven : ∀ j ∈ nd.feeders, Driven tr j
  · exact .inr ⟨h.evaluated_of_driven hfit hdriven, hdriven⟩
  · push Not at hdriven
    obtain ⟨j, hj, hundriven⟩ := hdriven
    exact .inl ⟨node_evaluate_of_undriven hj hundriven, j, hj, hundriven⟩

/-! Running a composition. -/

theorem outputsFit_cons {C : Circuit} {tr : Trace} {k : Nat} {nd : Node} (hnd : C.nodes[k]? = some nd)
    (h : nd.WellConnected C) (hfit : C.OutputsFit tr) : C.OutputsFit ((k, nd.evaluate C.inputs tr) :: tr) := by
  intro k' nd' outs hnd' hlookup
  rw [List.lookup_cons] at hlookup
  cases hk : k' == k <;> rw [hk] at hlookup
  case false => exact hfit k' nd' outs hnd' hlookup
  case true =>
    obtain rfl := beq_iff_eq.mp hk
    obtain rfl := Option.some.inj (hnd.symm.trans hnd')
    have heval : nd.evaluate C.inputs tr = .ok outs := Option.some.inj hlookup
    rcases h.evaluate_cases hfit with ⟨hnot, _⟩ | ⟨⟨outs', hok, houts⟩ | ⟨c, hinvalid, _⟩, _⟩
    · cases hnot.symm.trans heval
    · obtain rfl := NodeOutcome.ok.inj (hok.symm.trans heval)
      exact houts
    · cases hinvalid.symm.trans heval

/-- Whatever the order, running nodes the builder accepts adds only outputs that fit their ports. -/
theorem outputsFit_runFrom {C : Circuit} (hC : C.WellConnected) {tr : Trace} (hfit : C.OutputsFit tr)
    (ks : List Nat) : C.OutputsFit (C.runFrom tr ks) := by
  induction ks generalizing tr with
  | nil => exact hfit
  | cons k ks ih =>
    cases hnd : C.nodes[k]? with
    | none =>
      have hskip : C.runFrom tr (k :: ks) = C.runFrom tr ks := by simp only [Circuit.runFrom, hnd]
      exact hskip ▸ ih hfit
    | some nd =>
      rw [runFrom_cons hnd]
      exact ih (outputsFit_cons hnd (hC k nd hnd) hfit)

theorem outputsFit_nil (C : Circuit) : C.OutputsFit [] :=
  fun _ _ _ _ h => nomatch h

/-! Admissible orders (70_reset_and_hazards.md rule R116). -/

theorem admissibleFrom_cons_iff {C : Circuit} {done ks : List Nat} {k : Nat} :
    C.admissibleFrom done (k :: ks) = true ↔
      (∃ nd, C.nodes[k]? = some nd ∧ k ∉ done ∧ ∀ j ∈ nd.feeders, j ∈ done) ∧
        C.admissibleFrom (k :: done) ks = true := by
  rw [Circuit.admissibleFrom, Bool.and_eq_true, ready_iff]

/-- Each node comes once: none that has been evaluated comes again. -/
theorem nodup_of_admissibleFrom {C : Circuit} {done ks : List Nat} (h : C.admissibleFrom done ks = true) :
    ks.Nodup ∧ ∀ k ∈ ks, k ∉ done := by
  induction ks generalizing done with
  | nil => exact ⟨.nil, fun k hk => absurd hk List.not_mem_nil⟩
  | cons k ks ih =>
    obtain ⟨⟨nd, _, hfresh, _⟩, hrest⟩ := admissibleFrom_cons_iff.mp h
    obtain ⟨hnodup, hdisjoint⟩ := ih hrest
    refine ⟨List.nodup_cons.mpr ⟨fun hk => hdisjoint k hk List.mem_cons_self, hnodup⟩, ?_⟩
    exact List.forall_mem_cons.mpr ⟨hfresh, fun k' hk' hdone => hdisjoint k' hk' (List.mem_cons_of_mem _ hdone)⟩

/-- No node is left out. -/
theorem mem_of_admissibleFrom {C : Circuit} {done ks : List Nat} (h : C.admissibleFrom done ks = true) {k : Nat}
    (hk : k < C.nodes.length) : k ∈ done ∨ k ∈ ks := by
  induction ks generalizing done with
  | nil => exact .inl (allDone_iff.mp h k hk)
  | cons k' ks ih =>
    rcases ih (admissibleFrom_cons_iff.mp h).2 with hdone | hks
    · rcases List.mem_cons.mp hdone with rfl | hdone
      · exact .inr List.mem_cons_self
      · exact .inl hdone
    · exact .inr (List.mem_cons_of_mem _ hks)

/-- The scheduler takes only ready nodes and stops only when all are done. -/
theorem admissibleFrom_of_scheduleFrom {C : Circuit} {fuel : Nat} {done order : List Nat}
    (h : C.scheduleFrom fuel done = some order) : C.admissibleFrom done order = true := by
  induction fuel generalizing done order with
  | zero =>
    obtain ⟨hdone, horder⟩ := Option.ite_none_right_eq_some.mp h
    obtain rfl := Option.some.inj horder
    exact hdone
  | succ fuel ih =>
    unfold Circuit.scheduleFrom at h
    split at h
    case h_1 k hk =>
      obtain ⟨ks, hks, rfl⟩ := Option.map_eq_some_iff.mp h
      rw [Circuit.admissibleFrom, List.find?_some hk, ih hks, Bool.true_and]
    case h_2 =>
      obtain ⟨hdone, horder⟩ := Option.ite_none_right_eq_some.mp h
      obtain rfl := Option.some.inj horder
      exact hdone

/-- What the builder's answer says of the composition. -/
theorem build_ok {C : Circuit} {order : List Nat} (h : C.build = .ok order) :
    C.WellConnected ∧ C.admissible order = true := by
  unfold Circuit.build at h
  split at h
  case h_1 => cases h
  case h_2 hnoError =>
    split at h
    case h_1 found hfound =>
      obtain rfl := Except.ok.inj h
      refine ⟨fun k nd hnd => ?_, admissibleFrom_of_scheduleFrom hfound⟩
      have hmem : (nd, k) ∈ C.nodes.zipIdx := List.mk_mem_zipIdx_iff_getElem?.mpr hnd
      exact wellConnected_of_error_none (List.findSome?_eq_none_iff.mp hnoError (nd, k) hmem)
    case h_2 => cases h

/-- In the trace of an admissible run, a node has the outcome that this trace itself gives it: its feeders come before
it, and nothing after it is about them. -/
theorem lookup_runFrom_of_mem {C : Circuit} {tr : Trace} {done ks : List Nat} (h : C.admissibleFrom done ks = true)
    {k : Nat} {nd : Node} (hnd : C.nodes[k]? = some nd) (hk : k ∈ ks) :
    (C.runFrom tr ks).lookup k = some (nd.evaluate C.inputs (C.runFrom tr ks)) := by
  induction ks generalizing tr done with
  | nil => cases hk
  | cons k' ks ih =>
    obtain ⟨⟨nd', hnd', hfresh, hfeeders⟩, hrest⟩ := admissibleFrom_cons_iff.mp h
    obtain ⟨hnodup, hdisjoint⟩ := nodup_of_admissibleFrom h
    rcases List.mem_cons.mp hk with rfl | hks
    · obtain rfl := Option.some.inj (hnd.symm.trans hnd')
      have hkept : ∀ j ∈ nd.feeders, (C.runFrom tr (k :: ks)).lookup j = tr.lookup j := fun j hj =>
        runFrom_lookup_of_not_mem fun hj' => hdisjoint j hj' (hfeeders j hj)
      rw [node_evaluate_congr nd hkept, runFrom_cons hnd,
        runFrom_lookup_of_not_mem (List.nodup_cons.mp hnodup).1, List.lookup_cons_self]
    · rw [runFrom_cons hnd']
      exact ih hrest hks

theorem lookup_runFrom_of_admissible {C : Circuit} {order : List Nat} (h : C.admissible order = true) {k : Nat}
    {nd : Node} (hnd : C.nodes[k]? = some nd) :
    (C.runFrom [] order).lookup k = some (nd.evaluate C.inputs (C.runFrom [] order)) := by
  obtain ⟨hk, _⟩ := List.getElem?_eq_some_iff.mp hnd
  rcases mem_of_admissibleFrom h hk with hdone | hmem
  · cases hdone
  · exact lookup_runFrom_of_mem h hnd hmem

/-- The nodes of the trace of an admissible run, the last first. -/
theorem runFrom_nodes {C : Circuit} {tr : Trace} {done ks : List Nat} (h : C.admissibleFrom done ks = true) :
    (C.runFrom tr ks).map Prod.fst = ks.reverse ++ tr.map Prod.fst := by
  induction ks generalizing tr done with
  | nil => rfl
  | cons k ks ih =>
    obtain ⟨⟨nd, hnd, _⟩, hrest⟩ := admissibleFrom_cons_iff.mp h
    rw [runFrom_cons hnd, ih hrest, List.map_cons, List.reverse_cons, List.append_assoc, List.singleton_append]

theorem runFrom_nodes_nodup {C : Circuit} {order : List Nat} (h : C.admissible order = true) :
    ((C.runFrom [] order).map Prod.fst).Nodup := by
  rw [runFrom_nodes h, List.map_nil, List.append_nil, List.nodup_reverse]
  exact (nodup_of_admissibleFrom h).1

/-! The outcome of a composition (rules R96 and R99). -/

theorem mem_causesOf_iff {tr : Trace} {k : Nat} {c : Cause} : (k, c) ∈ causesOf tr ↔ (k, .invalid c) ∈ tr := by
  unfold causesOf
  rw [List.mem_filterMap]
  constructor
  · rintro ⟨⟨k', oc⟩, hmem, hcause⟩
    cases oc with
    | invalid c' =>
      obtain ⟨rfl, rfl⟩ := Prod.mk.inj (Option.some.inj hcause)
      exact hmem
    | ok | notEvaluated | rejected => cases hcause
  · exact fun hmem => ⟨_, hmem, rfl⟩

theorem mem_causesOf_iff_lookup {tr : Trace} (h : (tr.map Prod.fst).Nodup) {k : Nat} {c : Cause} :
    (k, c) ∈ causesOf tr ↔ tr.lookup k = some (.invalid c) :=
  mem_causesOf_iff.trans (lookup_eq_some_iff_mem h).symm

theorem compositeOutcome_of_nil {tr : Trace} (h : causesOf tr = []) : compositeOutcome tr = .ok tr := by
  unfold compositeOutcome
  rw [h]

theorem compositeOutcome_of_ne_nil {tr : Trace} (h : causesOf tr ≠ []) :
    compositeOutcome tr = .invalidInput (causesOf tr) tr := by
  unfold compositeOutcome
  split
  case h_1 hnil => exact absurd hnil h
  case h_2 => rfl

theorem evaluate_of_build {C : Circuit} {order : List Nat} (h : C.build = .ok order) :
    C.evaluate = .ok (compositeOutcome (C.runFrom [] order)) := by
  unfold Circuit.evaluate
  rw [h]

/-! The obligations. -/

/-- Settles O47: the builder's order is admissible, so each node's outcome is the one the final trace gives it, and it
is evaluated exactly when its feeders have outputs. -/
theorem builtCompositionIsSound : Obligations.BuiltCompositionIsSound := by
  intro C order hbuild tr k nd hnd
  obtain ⟨hconnected, hadmissible⟩ := build_ok hbuild
  have hfit : C.OutputsFit tr := outputsFit_runFrom hconnected (outputsFit_nil C) order
  refine ⟨_, lookup_runFrom_of_admissible hadmissible hnd, ?_⟩
  rcases (hconnected k nd hnd).evaluate_cases hfit with ⟨heval, j, hj, hundriven⟩ | ⟨hevaluated, hdriven⟩
  case inl =>
    rw [heval]
    exact ⟨nofun, nofun, fun _ => ⟨j, hj, not_exists.mp hundriven⟩, fun _ => rfl⟩
  case inr =>
    have hnone : ¬ ∃ j ∈ nd.feeders, ∀ outs, tr.lookup j ≠ some (.ok outs) :=
      fun ⟨j, hj, hundriven⟩ => (hdriven j hj).elim hundriven
    rcases hevaluated with ⟨outs, heval, _⟩ | ⟨c, heval, hcode⟩
    all_goals rw [heval]
    · exact ⟨nofun, nofun, nofun, fun hsome => absurd hsome hnone⟩
    · exact ⟨nofun, fun c' hc => NodeOutcome.invalid.inj hc ▸ hcode, nofun, fun hsome => absurd hsome hnone⟩

/-- Settles O48: each node stands in the trace once, so the causes collected from it are those the nodes raised. -/
theorem compositionFaultsIffSomeUnitDoes : Obligations.CompositionFaultsIffSomeUnitDoes := by
  intro C order hbuild tr
  have hcauses : ∀ k c, (k, c) ∈ causesOf tr ↔ tr.lookup k = some (.invalid c) :=
    fun _ _ => mem_causesOf_iff_lookup (runFrom_nodes_nodup (build_ok hbuild).2)
  rw [evaluate_of_build hbuild]
  refine ⟨fun hnone => ?ok, fun ⟨k, c, hraised⟩ => ?invalidInput⟩
  case ok =>
    have hnil : causesOf tr = [] := List.eq_nil_iff_forall_not_mem.mpr fun x hx => hnone x.1 x.2 ((hcauses _ _).mp hx)
    exact congrArg Except.ok (compositeOutcome_of_nil hnil)
  case invalidInput =>
    have hne : causesOf tr ≠ [] := List.ne_nil_of_mem ((hcauses k c).mpr hraised)
    exact ⟨_, congrArg Except.ok (compositeOutcome_of_ne_nil hne), hcauses⟩

/-- Settles O31: of the two cases of an evaluation, the contract picks one. -/
theorem raisesExactlyOnContractViolation : Obligations.RaisesExactlyOnContractViolation := by
  refine ⟨fun i s => ?_, fun s hw => .inr (mux8way_sel_lt hw)⟩
  rcases exec_followsContract i s with ⟨hholds, o, hunit, _, hexec⟩ | ⟨hviolated, hraises⟩
  · exact ⟨fun _ => ⟨o, hunit, hexec⟩, fun hviolated => absurd hholds hviolated⟩
  · exact ⟨fun hholds => absurd hholds hviolated, fun _ => hraises⟩

/-- Settles O33: an evaluation faults with its unit's own cause and is never refused, and a step is refused only for the
index. -/
theorem stepNeverRaisesWidthMismatch : Obligations.StepNeverRaisesWidthMismatch := by
  intro s
  rcases step_cases s with ⟨i, hdecode, hstep⟩ | ⟨u, hdecode, hstep⟩
  case inl =>
    rw [hstep]
    rcases exec_followsContract i s with ⟨_, o, _, _, hexec⟩ | ⟨_, c, hcause, hexec⟩
    all_goals rw [hexec]
    case inl => exact ⟨nofun, nofun⟩
    case inr =>
      refine ⟨fun f hf => ⟨i, c, hdecode, ?_, hcause, code_of_violationCause hcause⟩, nofun⟩
      exact (Host.Outcome.fault.inj hf).symm
  case inr =>
    rw [hstep]
    obtain ⟨rfl, hle⟩ := decode_error hdecode
    exact ⟨nofun, fun r hr => ⟨(Host.Outcome.refused.inj hr).symm, hle⟩⟩

/-- Settles O32: each value out of range completes, with the zero word, the default pattern, or no lane selected. -/
theorem definedFallbacksAreNotErrors : Obligations.DefinedFallbacksAreNotErrors := by
  intro s
  obtain ⟨hdeMux2way, hdeMux4way⟩ := demuxOutOfRangeIsAllZero s
  refine ⟨fun hsize => ?shift, fun hkey => ?segments, hdeMux2way, hdeMux4way⟩
  case shift => rw [exec_barrelShifter, barrelShift_of_ge _ _ hsize, complete_eq]
  case segments =>
    rw [← segmentKey_eq_mod] at hkey
    exact exec_bin2Hex_of_ge (by omega)

end Sys2Proof.Machine

/-! PROOFS (70_reset_and_hazards.md). What holds of a node whenever it holds of the nodes that feed it holds of every
node of an admissible order. So no node on a loop stands in such an order, two runs that settle their nodes agree on
them, and a scheduler that finds no ready node has taken them all. -/

namespace Sys2Proof.Machine

/-! Induction along an admissible order (rule R116). -/

theorem admissibleFrom_induction {C : Circuit} {P : Nat → Prop}
    (hstep : ∀ k nd, C.nodes[k]? = some nd → (∀ j ∈ nd.feeders, P j) → P k) {done ks : List Nat}
    (h : C.admissibleFrom done ks = true) (hdone : ∀ k ∈ done, P k) : ∀ k ∈ ks, P k := by
  induction ks generalizing done with
  | nil => exact fun k hk => absurd hk List.not_mem_nil
  | cons k ks ih =>
    obtain ⟨⟨nd, hnd, _, hfeeders⟩, hrest⟩ := admissibleFrom_cons_iff.mp h
    have hk : P k := hstep k nd hnd fun j hj => hdone j (hfeeders j hj)
    exact List.forall_mem_cons.mpr ⟨hk, ih hrest (List.forall_mem_cons.mpr ⟨hk, hdone⟩)⟩

theorem admissible_induction {C : Circuit} {P : Nat → Prop}
    (hstep : ∀ k nd, C.nodes[k]? = some nd → (∀ j ∈ nd.feeders, P j) → P k) {order : List Nat}
    (h : C.admissible order = true) : ∀ k ∈ order, P k :=
  admissibleFrom_induction hstep h fun _ hk => absurd hk List.not_mem_nil

theorem mem_of_admissible {C : Circuit} {order : List Nat} (h : C.admissible order = true) {k : Nat}
    (hk : k < C.nodes.length) : k ∈ order :=
  (mem_of_admissibleFrom h hk).resolve_left List.not_mem_nil

/-! Where an admissible order exists, the scheduler never gets stuck. -/

theorem exists_ready_of_not_allDone {C : Circuit} {order : List Nat} (h : C.admissible order = true) {done : List Nat}
    (hdone : C.allDone done ≠ true) : ∃ k, C.ready done k = true := by
  by_contra hstuck
  have htaken : ∀ k ∈ order, k ∈ done := by
    refine admissible_induction (fun k nd hnd hfeeders => ?_) h
    by_contra hfresh
    exact hstuck ⟨k, ready_iff.mpr ⟨nd, hnd, hfresh, hfeeders⟩⟩
  exact hdone (allDone_iff.mpr fun k hk => htaken k (mem_of_admissible h hk))

theorem lt_length_of_ready {C : Circuit} {done : List Nat} {k : Nat} (h : C.ready done k = true) :
    k < C.nodes.length := by
  obtain ⟨nd, hnd, _⟩ := ready_iff.mp h
  exact (List.getElem?_eq_some_iff.mp hnd).1

/-- The nodes still to be evaluated. -/
def Circuit.remaining (C : Circuit) (done : List Nat) : Finset Nat :=
  Finset.range C.nodes.length \ done.toFinset

theorem mem_remaining_iff {C : Circuit} {done : List Nat} {k : Nat} :
    k ∈ C.remaining done ↔ k < C.nodes.length ∧ k ∉ done := by
  simp [Circuit.remaining]

theorem allDone_iff_remaining_eq_empty {C : Circuit} {done : List Nat} :
    C.allDone done = true ↔ C.remaining done = ∅ := by
  simp [allDone_iff, Finset.eq_empty_iff_forall_notMem, mem_remaining_iff]

theorem card_remaining_nil (C : Circuit) : (C.remaining []).card = C.nodes.length := by
  simp [Circuit.remaining]

theorem card_remaining_lt_of_ready {C : Circuit} {done : List Nat} {k : Nat} (h : C.ready done k = true) :
    (C.remaining (k :: done)).card < (C.remaining done).card := by
  obtain ⟨_, _, hfresh, _⟩ := ready_iff.mp h
  rw [Circuit.remaining, List.toFinset_cons, Finset.sdiff_insert]
  exact Finset.card_erase_lt_of_mem (mem_remaining_iff.mpr ⟨lt_length_of_ready h, hfresh⟩)

/-- With fuel for the nodes that remain, the scheduler answers an order if some node is ready as long as one remains. -/
theorem exists_scheduleFrom {C : Circuit} (hready : ∀ done, C.allDone done ≠ true → ∃ k, C.ready done k = true)
    {fuel : Nat} {done : List Nat} (hfuel : (C.remaining done).card ≤ fuel) :
    ∃ found, C.scheduleFrom fuel done = some found := by
  induction fuel generalizing done with
  | zero =>
    have hdone : C.allDone done = true :=
      allDone_iff_remaining_eq_empty.mpr (Finset.card_eq_zero.mp (Nat.le_zero.mp hfuel))
    exact ⟨[], if_pos hdone⟩
  | succ fuel ih =>
    unfold Circuit.scheduleFrom
    split
    case h_1 k hk =>
      have hless := card_remaining_lt_of_ready (List.find?_some hk)
      obtain ⟨ks, hks⟩ := ih (done := k :: done) (by omega)
      exact ⟨k :: ks, by rw [hks, Option.map_some]⟩
    case h_2 hnone =>
      have hdone : C.allDone done = true := by
        by_contra hnot
        obtain ⟨k, hk⟩ := hready done hnot
        exact List.find?_eq_none.mp hnone k (List.mem_range.mpr (lt_length_of_ready hk)) hk
      exact ⟨[], if_pos hdone⟩

/-! Combinational loops (rule R112). -/

/-- On a loop, the node before a node is on the loop too. -/
theorem exists_feeder_on_loop {C : Circuit} {k : Nat} (h : Relation.TransGen C.feeds k k) :
    ∃ j, C.feeds j k ∧ Relation.TransGen C.feeds j j := by
  obtain ⟨j, hkj, hjk⟩ := Relation.TransGen.tail'_iff.mp h
  exact ⟨j, hjk, .head' hjk hkj⟩

theorem not_admissible_of_loop {C : Circuit} {k : Nat} (h : Relation.TransGen C.feeds k k) (order : List Nat) :
    C.admissible order ≠ true := by
  intro hadmissible
  have hloopFree : ∀ i ∈ order, ¬ Relation.TransGen C.feeds i i := by
    refine admissible_induction (fun i nd hnd hfeeders hloop => ?_) hadmissible
    obtain ⟨j, ⟨nd', hnd', hj⟩, hjloop⟩ := exists_feeder_on_loop hloop
    obtain rfl := Option.some.inj (hnd.symm.trans hnd')
    exact hfeeders j hj hjloop
  obtain ⟨_, ⟨nd, hnd, _⟩, _⟩ := exists_feeder_on_loop h
  exact hloopFree k (mem_of_admissible hadmissible (List.getElem?_eq_some_iff.mp hnd).1) h

theorem evaluate_of_build_error {C : Circuit} {e : BuildError} (h : C.build = .error e) : C.evaluate = .error e := by
  unfold Circuit.evaluate
  rw [h]

/-! The order does not matter (rules R41 and R116). -/

/-- Every node has the outcome that the trace itself gives it. -/
def Circuit.Settled (C : Circuit) (tr : Trace) : Prop :=
  ∀ k nd, C.nodes[k]? = some nd → tr.lookup k = some (nd.evaluate C.inputs tr)

theorem settled_runFrom_of_admissible {C : Circuit} {order : List Nat} (h : C.admissible order = true) :
    C.Settled (C.runFrom [] order) :=
  fun _ _ => lookup_runFrom_of_admissible h

/-- Only one outcome of each node settles a composition without a loop. -/
theorem lookup_eq_of_settled {C : Circuit} {order : List Nat} (h : C.admissible order = true) {tr tr' : Trace}
    (htr : C.Settled tr) (htr' : C.Settled tr') : ∀ k ∈ order, tr.lookup k = tr'.lookup k := by
  refine admissible_induction (fun k nd hnd hfeeders => ?_) h
  rw [htr k nd hnd, htr' k nd hnd, node_evaluate_congr nd hfeeders]

/-! The obligations. -/

/-- Settles O44: while a node remains, the first of the given order not yet taken is ready, so the scheduler goes on. -/
theorem loopFreeCompositionIsScheduled : Obligations.LoopFreeCompositionIsScheduled := by
  intro C order hadmissible
  obtain ⟨found, hfound⟩ :=
    exists_scheduleFrom (fun _ => exists_ready_of_not_allDone hadmissible) (card_remaining_nil C).le
  exact ⟨found, hfound, admissibleFrom_of_scheduleFrom hfound⟩

/-- Settles O45: an order the builder answered would be admissible, and with a loop none is. -/
theorem combinationalLoopIsRefused : Obligations.CombinationalLoopIsRefused := by
  intro C k hloop
  cases hbuild : C.build with
  | ok order => exact absurd (build_ok hbuild).2 (not_admissible_of_loop hloop order)
  | error e => exact ⟨e, rfl, evaluate_of_build_error hbuild⟩

/-- Settles O46: both runs settle the nodes of either order, and a node of neither order has no outcome in either. -/
theorem resultDoesNotDependOnTheOrder : Obligations.ResultDoesNotDependOnTheOrder := by
  intro C order order' h h' k
  have hsettled := settled_runFrom_of_admissible h
  have hsettled' := settled_runFrom_of_admissible h'
  by_cases hk : k ∈ order
  case pos => exact lookup_eq_of_settled h hsettled hsettled' k hk
  case neg =>
    by_cases hk' : k ∈ order'
    case pos => exact lookup_eq_of_settled h' hsettled hsettled' k hk'
    case neg => rw [runFrom_lookup_of_not_mem hk, runFrom_lookup_of_not_mem hk']

/-- Settles O43: what the scheduler takes is ready, and it stops only when all are done. -/
theorem scheduleIsAdmissible : Obligations.ScheduleIsAdmissible :=
  fun _ _ hbuild => (build_ok hbuild).2

end Sys2Proof.Machine
